-- ==== Sys2Proof/Word.lean ====
section
/-! DEFINITION. Words, bytes and the plainest arithmetic on them. -/

namespace Sys2Proof

/-- A 32-bit word: a scalar register, a CSR, an instruction word (R14). -/
abbrev Word := BitVec 32

/-- A byte of any memory (R4). -/
abbrev Byte := BitVec 8

/-- A handle register as the 256 bits software reads and writes (R19). -/
abbrev HandleBits := BitVec 256

/-- A byte address of instruction memory (R51). -/
abbrev Pc := BitVec 16

/-- Bits [hi:lo] of a number, as R9 writes x[hi:lo]. -/
def bits (x hi lo : Nat) : Nat := (x / 2 ^ lo) % 2 ^ (hi + 1 - lo)

/-- The quotient rounded up; 0 where the divisor is 0. -/
def ceilDiv (n d : Nat) : Nat := if d = 0 then 0 else (n + d - 1) / d

/-- A number read as a k-bit two's-complement number, sx(v, k) of 05_scalar_instructions. -/
def sx (v k : Nat) : Int :=
  if v % 2 ^ k < 2 ^ (k - 1) then (v % 2 ^ k : Nat) else (v % 2 ^ k : Nat) - (2 ^ k : Nat)

end Sys2Proof
end

