-- ==== Sys2Proof/Syntax.lean ====
section
/-! DEFINITION. The instruction words and the steps of the agents: one constructor per row of the
opcode table. An instruction word carries its prefixes in a header (R62) and the operand fields of
its encoding; a step carries what an observer outside the machine chooses. -/

namespace Sys2Proof

/-- The three 9-bit wait fields of a TOK word (R77): engine code in [8:7], distance in [6:0]. -/
structure Tok where
  wa : BitVec 9
  wb : BitVec 9
  wc : BitVec 9
deriving DecidableEq, Repr

/-- What every instruction carries beside its operands: the guard (R69) and the prefixes (R62). -/
structure Hdr where
  g : BitVec 3
  tok : Option Tok
  limm : Option (BitVec 28)
deriving DecidableEq, Repr

/-- Guard p0 and no prefix. -/
def Hdr.plain : Hdr := { g := 0, tok := none, limm := none }

/-- The four engines of a core, in the order of the engine codes of R77. -/
inductive Eng where
  | V | M | L | E
deriving DecidableEq, Repr

/-- The package rails of R471. -/
inductive Rail where
  | vcore | vsram | vio | vaux
deriving DecidableEq, Repr

/-- Why the word of an instruction could not be read (R63, R195, R345). -/
inductive FetchFault where
  | invalid | notExecutable | poisoned
deriving DecidableEq, Repr

/-- Where a bit error strikes (R344): core memories by core and address, or staging. -/
inductive SramSite where
  | coreLocal (p a : Nat) (correctable : Bool)
  | coreImem (p a : Nat) (correctable : Bool)
  | staging (a : Nat) (correctable : Bool)
deriving DecidableEq, Repr

/-- A PCI Express memory request as a port receives it (R333, R433): function, BAR, offset in the
BAR, byte count, the bytes of a write, the Relaxed Ordering attribute and the EP bit (R432). -/
structure PcieReq where
  fn : Nat
  bar : Nat
  off : Nat
  n : Nat
  data : Option (List (BitVec 8))
  relaxed : Bool
  ep : Bool
deriving DecidableEq, Repr

/-- The AtomicOps of R435. -/
inductive PcieAtomicOp where
  | fetchAdd | swap | cas
deriving DecidableEq, Repr

/-- An AtomicOp request (R435): its size is 4, 8 or 16 bytes. -/
structure PcieAtomic where
  fn : Nat
  bar : Nat
  off : Nat
  op : PcieAtomicOp
  size : Nat
  a : Nat
  b : Nat
deriving DecidableEq, Repr

/-- A request of the host to configuration space or to a function's MSI-X structure (R433, R436): NumVFs, the mask bit of
an entry of the function's table, or a read of its Pending Bit Array. -/
inductive ConfigWrite where
  | numVfs (n : Nat)
  | mask (fn : Nat) (entry : Nat) (masked : Bool)
  | pending (fn : Nat)
deriving DecidableEq, Repr

/-- A message of the peer reduction unit (R442): bytes 12 to 15 of its header, its payload, and the EP bit. -/
structure PeerMsg where
  header : BitVec 32
  payload : List (BitVec 8)
  ep : Bool
deriving DecidableEq, Repr

/-- The current of a rail in A, and for how many µs it has flowed (R472). -/
structure RailCurrent where
  amps : Nat
  us : Nat
deriving DecidableEq, Repr

/-- A physical core and its VCORE in mV (R473). -/
structure CoreVoltage where
  core : Nat
  mv : Nat
deriving DecidableEq, Repr

/-- The opcode table: first the instruction words, then the steps of the agents. -/
inductive Instr where
  /-- ADD (R145): Adds two register groups modulo 2^N. -/
  | add (h : Hdr) (w : BitVec 1) (d : BitVec 6) (a : BitVec 6) (b : BitVec 6)
  /-- SUB (R145): Subtracts two register groups modulo 2^N. -/
  | sub (h : Hdr) (w : BitVec 1) (d : BitVec 6) (a : BitVec 6) (b : BitVec 6)
  /-- AND (R145): Bitwise AND of two register groups. -/
  | and (h : Hdr) (w : BitVec 2) (d : BitVec 6) (a : BitVec 6) (b : BitVec 6)
  /-- OR (R145): Bitwise OR of two register groups. -/
  | or (h : Hdr) (w : BitVec 2) (d : BitVec 6) (a : BitVec 6) (b : BitVec 6)
  /-- XOR (R145): Bitwise XOR of two register groups. -/
  | xor (h : Hdr) (w : BitVec 2) (d : BitVec 6) (a : BitVec 6) (b : BitVec 6)
  /-- ANDN (R145): Bitwise AND with the complement of the second group. -/
  | andn (h : Hdr) (w : BitVec 2) (d : BitVec 6) (a : BitVec 6) (b : BitVec 6)
  /-- SHL (R145): Logical left shift by rb[4:0]. -/
  | shl (h : Hdr) (d : BitVec 6) (a : BitVec 6) (b : BitVec 6)
  /-- SHR (R145): Logical right shift by rb[4:0]. -/
  | shr (h : Hdr) (d : BitVec 6) (a : BitVec 6) (b : BitVec 6)
  /-- SRA (R145): Arithmetic right shift by rb[4:0]. -/
  | sra (h : Hdr) (d : BitVec 6) (a : BitVec 6) (b : BitVec 6)
  /-- ROT (R145): Rotate right by rb[4:0]. -/
  | rot (h : Hdr) (d : BitVec 6) (a : BitVec 6) (b : BitVec 6)
  /-- MIN (R145): Signed minimum of two registers. -/
  | min (h : Hdr) (d : BitVec 6) (a : BitVec 6) (b : BitVec 6)
  /-- MAX (R145): Signed maximum of two registers. -/
  | max (h : Hdr) (d : BitVec 6) (a : BitVec 6) (b : BitVec 6)
  /-- MINU (R145): Unsigned minimum of two registers. -/
  | minu (h : Hdr) (d : BitVec 6) (a : BitVec 6) (b : BitVec 6)
  /-- MAXU (R145): Unsigned maximum of two registers. -/
  | maxu (h : Hdr) (d : BitVec 6) (a : BitVec 6) (b : BitVec 6)
  /-- CMP_EQ (R146): Sets a predicate to register equality. -/
  | cmpEq (h : Hdr) (w : BitVec 1) (p : BitVec 3) (a : BitVec 6) (b : BitVec 6)
  /-- CMP_NE (R146): Sets a predicate to register inequality. -/
  | cmpNe (h : Hdr) (w : BitVec 1) (p : BitVec 3) (a : BitVec 6) (b : BitVec 6)
  /-- CMP_LT (R146): Sets a predicate to signed less-than. -/
  | cmpLt (h : Hdr) (w : BitVec 1) (p : BitVec 3) (a : BitVec 6) (b : BitVec 6)
  /-- CMP_LE (R146): Sets a predicate to signed less-or-equal. -/
  | cmpLe (h : Hdr) (w : BitVec 1) (p : BitVec 3) (a : BitVec 6) (b : BitVec 6)
  /-- CMP_LTU (R146): Sets a predicate to unsigned less-than. -/
  | cmpLtu (h : Hdr) (w : BitVec 1) (p : BitVec 3) (a : BitVec 6) (b : BitVec 6)
  /-- CMP_LEU (R146): Sets a predicate to unsigned less-or-equal. -/
  | cmpLeu (h : Hdr) (w : BitVec 1) (p : BitVec 3) (a : BitVec 6) (b : BitVec 6)
  /-- SEL (R147): Selects ra or rb group by predicate pn. -/
  | sel (h : Hdr) (n : BitVec 3) (w : BitVec 2) (d : BitVec 6) (a : BitVec 6) (b : BitVec 6)
  /-- MUL (R148): Low 32 bits of the product. -/
  | mul (h : Hdr) (d : BitVec 6) (a : BitVec 6) (b : BitVec 6)
  /-- MULH (R148): High word of the signed product. -/
  | mulh (h : Hdr) (d : BitVec 6) (a : BitVec 6) (b : BitVec 6)
  /-- MULHU (R148): High word of the unsigned product. -/
  | mulhu (h : Hdr) (d : BitVec 6) (a : BitVec 6) (b : BitVec 6)
  /-- DIV (R149): Signed division truncating toward zero, never trapping. -/
  | div (h : Hdr) (d : BitVec 6) (a : BitVec 6) (b : BitVec 6)
  /-- DIVU (R149): Unsigned division. -/
  | divu (h : Hdr) (d : BitVec 6) (a : BitVec 6) (b : BitVec 6)
  /-- REM (R149): Signed remainder. -/
  | rem (h : Hdr) (d : BitVec 6) (a : BitVec 6) (b : BitVec 6)
  /-- REMU (R149): Unsigned remainder. -/
  | remu (h : Hdr) (d : BitVec 6) (a : BitVec 6) (b : BitVec 6)
  /-- CLZ (R150): Counts leading zero bits. -/
  | clz (h : Hdr) (d : BitVec 6) (a : BitVec 6)
  /-- CTZ (R150): Counts trailing zero bits. -/
  | ctz (h : Hdr) (d : BitVec 6) (a : BitVec 6)
  /-- POPC (R150): Counts one bits. -/
  | popc (h : Hdr) (d : BitVec 6) (a : BitVec 6)
  /-- BREV (R150): Reverses the bit order. -/
  | brev (h : Hdr) (d : BitVec 6) (a : BitVec 6)
  /-- BILV_2 (R151): Two-way Morton bit interleave. -/
  | bilv2 (h : Hdr) (d : BitVec 6) (a : BitVec 6) (b : BitVec 6)
  /-- BILV_3 (R151): Three-way Morton bit interleave. -/
  | bilv3 (h : Hdr) (d : BitVec 6) (a : BitVec 6) (b : BitVec 6)
  /-- BDLV_2 (R151): Two-way Morton de-interleave of coordinate y[0]. -/
  | bdlv2 (h : Hdr) (d : BitVec 6) (a : BitVec 6) (b : BitVec 6)
  /-- BDLV_3 (R151): Three-way Morton de-interleave of coordinate y[1:0]. -/
  | bdlv3 (h : Hdr) (d : BitVec 6) (a : BitVec 6) (b : BitVec 6)
  /-- BFX (R152): Extracts a bit field. -/
  | bfx (h : Hdr) (d : BitVec 6) (a : BitVec 6) (b : BitVec 6)
  /-- BFI (R152): Inserts a bit field into rd. -/
  | bfi (h : Hdr) (d : BitVec 6) (a : BitVec 6) (b : BitVec 6)
  /-- FADD (R153): FP32 addition under FPCTL.RM. -/
  | fadd (h : Hdr) (d : BitVec 6) (a : BitVec 6) (b : BitVec 6)
  /-- FMUL (R153): FP32 multiplication. -/
  | fmul (h : Hdr) (d : BitVec 6) (a : BitVec 6) (b : BitVec 6)
  /-- FMA (R153): FP32 fused multiply-add into rd. -/
  | fma (h : Hdr) (d : BitVec 6) (a : BitVec 6) (b : BitVec 6)
  /-- FMIN (R154): FP32 minimum with NaN handling. -/
  | fmin (h : Hdr) (d : BitVec 6) (a : BitVec 6) (b : BitVec 6)
  /-- FMAX (R154): FP32 maximum with NaN handling. -/
  | fmax (h : Hdr) (d : BitVec 6) (a : BitVec 6) (b : BitVec 6)
  /-- FCVT_F_I (R155): Converts signed integer to FP32. -/
  | fcvtFI (h : Hdr) (d : BitVec 6) (a : BitVec 6)
  /-- FCVT_F_U (R155): Converts unsigned integer to FP32. -/
  | fcvtFU (h : Hdr) (d : BitVec 6) (a : BitVec 6)
  /-- FCVT_I_F (R155): Converts FP32 to signed integer. -/
  | fcvtIF (h : Hdr) (d : BitVec 6) (a : BitVec 6)
  /-- FCVT_U_F (R155): Converts FP32 to unsigned integer. -/
  | fcvtUF (h : Hdr) (d : BitVec 6) (a : BitVec 6)
  /-- FCMP_EQ (R156): Predicate from FP32 equality. -/
  | fcmpEq (h : Hdr) (p : BitVec 3) (a : BitVec 6) (b : BitVec 6)
  /-- FCMP_LT (R156): Predicate from FP32 less-than. -/
  | fcmpLt (h : Hdr) (p : BitVec 3) (a : BitVec 6) (b : BitVec 6)
  /-- FCMP_LE (R156): Predicate from FP32 less-or-equal. -/
  | fcmpLe (h : Hdr) (p : BitVec 3) (a : BitVec 6) (b : BitVec 6)
  /-- FCMP_UN (R156): Predicate true when either FP32 operand is NaN. -/
  | fcmpUn (h : Hdr) (p : BitVec 3) (a : BitVec 6) (b : BitVec 6)
  /-- ADDI (R157): Adds an immediate. -/
  | addi (h : Hdr) (d : BitVec 6) (a : BitVec 6) (i : BitVec 9)
  /-- ANDI (R157): ANDs an immediate. -/
  | andi (h : Hdr) (d : BitVec 6) (a : BitVec 6) (i : BitVec 9)
  /-- ORI (R157): ORs an immediate. -/
  | ori (h : Hdr) (d : BitVec 6) (a : BitVec 6) (i : BitVec 9)
  /-- XORI (R157): XORs an immediate. -/
  | xori (h : Hdr) (d : BitVec 6) (a : BitVec 6) (i : BitVec 9)
  /-- SHLI (R157): Left shift by an immediate. -/
  | shli (h : Hdr) (d : BitVec 6) (a : BitVec 6) (s : BitVec 5)
  /-- SHRI (R157): Logical right shift by an immediate. -/
  | shri (h : Hdr) (d : BitVec 6) (a : BitVec 6) (s : BitVec 5)
  /-- SRAI (R157): Arithmetic right shift by an immediate. -/
  | srai (h : Hdr) (d : BitVec 6) (a : BitVec 6) (s : BitVec 5)
  /-- MOVI (R157): Moves an immediate into rd. -/
  | movi (h : Hdr) (d : BitVec 6) (i : BitVec 9)
  /-- CMPI_EQ (R158): Predicate from equality with an immediate. -/
  | cmpiEq (h : Hdr) (p : BitVec 3) (a : BitVec 6) (i : BitVec 9)
  /-- CMPI_NE (R158): Predicate from inequality with an immediate. -/
  | cmpiNe (h : Hdr) (p : BitVec 3) (a : BitVec 6) (i : BitVec 9)
  /-- CMPI_LT (R158): Predicate from signed less-than an immediate. -/
  | cmpiLt (h : Hdr) (p : BitVec 3) (a : BitVec 6) (i : BitVec 9)
  /-- CMPI_LE (R158): Predicate from signed less-or-equal an immediate. -/
  | cmpiLe (h : Hdr) (p : BitVec 3) (a : BitVec 6) (i : BitVec 9)
  /-- CMPI_LTU (R158): Predicate from unsigned less-than an immediate. -/
  | cmpiLtu (h : Hdr) (p : BitVec 3) (a : BitVec 6) (i : BitVec 9)
  /-- CMPI_LEU (R158): Predicate from unsigned less-or-equal an immediate. -/
  | cmpiLeu (h : Hdr) (p : BitVec 3) (a : BitVec 6) (i : BitVec 9)
  /-- LD_B (R161): Loads a zero-extended byte. -/
  | ldB (h : Hdr) (d : BitVec 6) (a : BitVec 6) (o : BitVec 7)
  /-- LD_H (R161): Loads a zero-extended half-word. -/
  | ldH (h : Hdr) (d : BitVec 6) (a : BitVec 6) (o : BitVec 7)
  /-- LD (R161): Loads a register group without full/empty qualifier. -/
  | ld (h : Hdr) (w : BitVec 2) (d : BitVec 6) (a : BitVec 6) (o : BitVec 7)
  /-- LD_W (R161): Loads a register group once the granules are full. -/
  | ldW (h : Hdr) (w : BitVec 2) (d : BitVec 6) (a : BitVec 6) (o : BitVec 7)
  /-- LD_C (R161): Loads once full and leaves the granules empty. -/
  | ldC (h : Hdr) (w : BitVec 2) (d : BitVec 6) (a : BitVec 6) (o : BitVec 7)
  /-- ST_B (R162): Stores a byte and sets the granule full. -/
  | stB (h : Hdr) (d : BitVec 6) (a : BitVec 6) (o : BitVec 7)
  /-- ST_H (R162): Stores a half-word and sets the granule full. -/
  | stH (h : Hdr) (d : BitVec 6) (a : BitVec 6) (o : BitVec 7)
  /-- ST (R162): Stores a register group and sets its granules full. -/
  | st (h : Hdr) (w : BitVec 2) (d : BitVec 6) (a : BitVec 6) (o : BitVec 7)
  /-- ST_E (R162): Stores only into empty granules, then sets them full. -/
  | stE (h : Hdr) (w : BitVec 2) (d : BitVec 6) (a : BitVec 6) (o : BitVec 7)
  /-- LDP (R164): Reads the parameter window at an offset under PWIN. -/
  | ldp (h : Hdr) (w : BitVec 2) (d : BitVec 6) (a : BitVec 6) (o : BitVec 7)
  /-- LDH (R165): Loads a 32-byte handle image into a handle. -/
  | ldh (h : Hdr) (x : BitVec 4) (a : BitVec 6) (o : BitVec 7)
  /-- STH (R165): Stores a handle as a 32-byte image. -/
  | sth (h : Hdr) (x : BitVec 4) (a : BitVec 6) (o : BitVec 7)
  /-- FEQ (R166): Sets a predicate from a granule's full/empty bit. -/
  | feq (h : Hdr) (p : BitVec 3) (a : BitVec 6) (o : BitVec 7)
  /-- FESET (R166): Sets a range of granules full. -/
  | feset (h : Hdr) (d : BitVec 6) (a : BitVec 6) (o : BitVec 7)
  /-- FECLR (R166): Clears a range of granules to empty. -/
  | feclr (h : Hdr) (d : BitVec 6) (a : BitVec 6) (o : BitVec 7)
  /-- BR (R170): Branches to a PC-relative target. -/
  | br (h : Hdr) (o : BitVec 23)
  /-- BRL (R170): Branches and writes the link to s1. -/
  | brl (h : Hdr) (o : BitVec 23)
  /-- LOOP (R172): Opens a hardware loop with count from a register. -/
  | loop (h : Hdr) (a : BitVec 6) (e : BitVec 15)
  /-- LOOPI (R172): Opens a hardware loop with an immediate count. -/
  | loopi (h : Hdr) (c : BitVec 10) (e : BitVec 11)
  /-- JR (R171): Jumps to a register plus offset. -/
  | jr (h : Hdr) (a : BitVec 6) (o : BitVec 15)
  /-- JRL (R171): Register jump that writes the link to s1. -/
  | jrl (h : Hdr) (a : BitVec 6) (o : BitVec 15)
  /-- CSRR (R188): Reads a CSR or CSR pair. -/
  | csrr (h : Hdr) (w : BitVec 1) (d : BitVec 6) (c : BitVec 12)
  /-- CSRW (R188): Writes a CSR. -/
  | csrw (h : Hdr) (w : BitVec 1) (d : BitVec 6) (c : BitVec 12)
  /-- CSRS (R188): Sets bits in a CSR. -/
  | csrs (h : Hdr) (w : BitVec 1) (d : BitVec 6) (c : BitVec 12)
  /-- CSRC (R188): Clears bits in a CSR. -/
  | csrc (h : Hdr) (w : BitVec 1) (d : BitVec 6) (c : BitVec 12)
  /-- PAND (R159): AND of two predicates. -/
  | pand (h : Hdr) (d : BitVec 3) (a : BitVec 3) (b : BitVec 3)
  /-- POR (R159): OR of two predicates. -/
  | por (h : Hdr) (d : BitVec 3) (a : BitVec 3) (b : BitVec 3)
  /-- PXOR (R159): XOR of two predicates. -/
  | pxor (h : Hdr) (d : BitVec 3) (a : BitVec 3) (b : BitVec 3)
  /-- PNOT (R159): Complement of a predicate. -/
  | pnot (h : Hdr) (d : BitVec 3) (a : BitVec 3)
  /-- PMOV (R159): Copies a predicate. -/
  | pmov (h : Hdr) (d : BitVec 3) (a : BitVec 3)
  /-- NOP (R192): Retires with no effect. -/
  | nop (h : Hdr)
  /-- SYNC (R179): Ends a compute superstep or an exchange block and holds for the boundary. -/
  | sync (h : Hdr)
  /-- ITER (R181): Sets the kernel-iteration mark. -/
  | iter (h : Hdr)
  /-- ERET (R199): Returns from a trap and releases or completes frozen engines. -/
  | eret (h : Hdr)
  /-- SVC (R193): Retires and traps with cause SVC. -/
  | svc (h : Hdr) (c : BitVec 11)
  /-- BKPT (R193): Retires and traps with cause BKPT, or halts under DBGCTL.BKH. -/
  | bkpt (h : Hdr) (c : BitVec 11)
  /-- QPOP (R183): Pops the oldest queue entry, holding or raising QDEAD. -/
  | qpop (h : Hdr) (d : BitVec 6) (n : BitVec 2)
  /-- QSTAT (R184): Reads a queue's level and targeting state. -/
  | qstat (h : Hdr) (d : BitVec 6) (n : BitVec 2)
  /-- RNG (R191): Writes the counter hash of a 64-bit counter. -/
  | rng (h : Hdr) (d : BitVec 6) (a : BitVec 5)
  /-- LEND_M (R186): Passes an accumulator bank to the matrix engine. -/
  | lendM (h : Hdr) (n : BitVec 3)
  /-- LEND_V (R186): Passes an accumulator bank to the vector engine. -/
  | lendV (h : Hdr) (n : BitVec 3)
  /-- VADD (R216): Dispatches element-wise addition. -/
  | vadd (h : Hdr) (d : BitVec 4) (a : BitVec 4) (b : BitVec 4) (s : BitVec 6)
  /-- VSUB (R216): Dispatches element-wise subtraction. -/
  | vsub (h : Hdr) (d : BitVec 4) (a : BitVec 4) (b : BitVec 4) (s : BitVec 6)
  /-- VMUL (R216): Dispatches element-wise multiplication. -/
  | vmul (h : Hdr) (d : BitVec 4) (a : BitVec 4) (b : BitVec 4) (s : BitVec 6)
  /-- VFMA (R216): Dispatches element-wise fused multiply-add into hd. -/
  | vfma (h : Hdr) (d : BitVec 4) (a : BitVec 4) (b : BitVec 4) (s : BitVec 6)
  /-- VMIN (R216): Dispatches element-wise minimum. -/
  | vmin (h : Hdr) (d : BitVec 4) (a : BitVec 4) (b : BitVec 4) (s : BitVec 6)
  /-- VMAX (R216): Dispatches element-wise maximum. -/
  | vmax (h : Hdr) (d : BitVec 4) (a : BitVec 4) (b : BitVec 4) (s : BitVec 6)
  /-- VABS (R216): Dispatches element-wise absolute value. -/
  | vabs (h : Hdr) (d : BitVec 4) (a : BitVec 4)
  /-- VNEG (R216): Dispatches element-wise negation. -/
  | vneg (h : Hdr) (d : BitVec 4) (a : BitVec 4)
  /-- VRCP (R217): Dispatches correctly rounded reciprocal. -/
  | vrcp (h : Hdr) (d : BitVec 4) (a : BitVec 4)
  /-- VRSQ (R217): Dispatches correctly rounded reciprocal square root. -/
  | vrsq (h : Hdr) (d : BitVec 4) (a : BitVec 4)
  /-- VEXP2 (R217): Dispatches base-2 exponential. -/
  | vexp2 (h : Hdr) (d : BitVec 4) (a : BitVec 4)
  /-- VLOG2 (R217): Dispatches base-2 logarithm. -/
  | vlog2 (h : Hdr) (d : BitVec 4) (a : BitVec 4)
  /-- VSIN (R217): Dispatches sine. -/
  | vsin (h : Hdr) (d : BitVec 4) (a : BitVec 4)
  /-- VCOS (R217): Dispatches cosine. -/
  | vcos (h : Hdr) (d : BitVec 4) (a : BitVec 4)
  /-- VTANH (R217): Dispatches hyperbolic tangent. -/
  | vtanh (h : Hdr) (d : BitVec 4) (a : BitVec 4)
  /-- VSIGM (R217): Dispatches logistic sigmoid. -/
  | vsigm (h : Hdr) (d : BitVec 4) (a : BitVec 4)
  /-- VIADD (R219): Dispatches wrapping integer addition. -/
  | viadd (h : Hdr) (d : BitVec 4) (a : BitVec 4) (b : BitVec 4) (s : BitVec 6)
  /-- VISUB (R219): Dispatches wrapping integer subtraction. -/
  | visub (h : Hdr) (d : BitVec 4) (a : BitVec 4) (b : BitVec 4) (s : BitVec 6)
  /-- VIMUL (R219): Dispatches wrapping integer multiplication. -/
  | vimul (h : Hdr) (d : BitVec 4) (a : BitVec 4) (b : BitVec 4) (s : BitVec 6)
  /-- VAND (R219): Dispatches element-wise bitwise AND. -/
  | vand (h : Hdr) (d : BitVec 4) (a : BitVec 4) (b : BitVec 4) (s : BitVec 6)
  /-- VOR (R219): Dispatches element-wise bitwise OR. -/
  | vor (h : Hdr) (d : BitVec 4) (a : BitVec 4) (b : BitVec 4) (s : BitVec 6)
  /-- VXOR (R219): Dispatches element-wise bitwise XOR. -/
  | vxor (h : Hdr) (d : BitVec 4) (a : BitVec 4) (b : BitVec 4) (s : BitVec 6)
  /-- VSHL (R219): Dispatches element-wise left shift. -/
  | vshl (h : Hdr) (d : BitVec 4) (a : BitVec 4) (b : BitVec 4) (s : BitVec 6)
  /-- VSHR (R219): Dispatches element-wise logical right shift. -/
  | vshr (h : Hdr) (d : BitVec 4) (a : BitVec 4) (b : BitVec 4) (s : BitVec 6)
  /-- VSRA (R219): Dispatches element-wise arithmetic right shift. -/
  | vsra (h : Hdr) (d : BitVec 4) (a : BitVec 4) (b : BitVec 4) (s : BitVec 6)
  /-- VCLZ (R219): Dispatches element-wise leading-zero count. -/
  | vclz (h : Hdr) (d : BitVec 4) (a : BitVec 4)
  /-- VPOPC (R219): Dispatches element-wise population count. -/
  | vpopc (h : Hdr) (d : BitVec 4) (a : BitVec 4)
  /-- VBILV (R220): Dispatches element-wise Morton interleave, two- or three-way. -/
  | vbilv (h : Hdr) (d : BitVec 4) (a : BitVec 4) (b : BitVec 4) (m : BitVec 1)
  /-- VCMP_EQ (R221): Dispatches element-wise equality compare. -/
  | vcmpEq (h : Hdr) (d : BitVec 4) (a : BitVec 4) (b : BitVec 4) (s : BitVec 6)
  /-- VCMP_NE (R221): Dispatches element-wise inequality compare. -/
  | vcmpNe (h : Hdr) (d : BitVec 4) (a : BitVec 4) (b : BitVec 4) (s : BitVec 6)
  /-- VCMP_LT (R221): Dispatches element-wise less-than compare. -/
  | vcmpLt (h : Hdr) (d : BitVec 4) (a : BitVec 4) (b : BitVec 4) (s : BitVec 6)
  /-- VCMP_LE (R221): Dispatches element-wise less-or-equal compare. -/
  | vcmpLe (h : Hdr) (d : BitVec 4) (a : BitVec 4) (b : BitVec 4) (s : BitVec 6)
  /-- VMSEL (R222): Dispatches masked select between ha and a scalar. -/
  | vmsel (h : Hdr) (d : BitVec 4) (a : BitVec 4) (k : BitVec 4) (s : BitVec 6)
  /-- VMSEL_M (R222): Dispatches masked merge leaving unselected elements untouched. -/
  | vmselM (h : Hdr) (d : BitVec 4) (a : BitVec 4) (k : BitVec 4)
  /-- VCVT (R223): Dispatches format conversion, optionally saturating. -/
  | vcvt (h : Hdr) (d : BitVec 4) (a : BitVec 4) (s : BitVec 4) (m : BitVec 1)
  /-- VQNT (R224): Dispatches block quantisation writing elements and scales. -/
  | vqnt (h : Hdr) (d : BitVec 4) (a : BitVec 4) (s : BitVec 4)
  /-- VDQT (R225): Dispatches dequantisation by block scales. -/
  | vdqt (h : Hdr) (d : BitVec 4) (a : BitVec 4) (s : BitVec 4)
  /-- VPERMB (R227): Dispatches byte table permute. -/
  | vpermb (h : Hdr) (d : BitVec 4) (a : BitVec 4) (b : BitVec 4)
  /-- VSHUF (R228): Dispatches in-lane-group element shuffle. -/
  | vshuf (h : Hdr) (d : BitVec 4) (a : BitVec 4) (b : BitVec 4)
  /-- VBCAST (R229): Dispatches broadcast of element 0 or a scalar. -/
  | vbcast (h : Hdr) (d : BitVec 4) (a : BitVec 4) (s : BitVec 6)
  /-- VMOV (R230): Dispatches a pattern copy. -/
  | vmov (h : Hdr) (d : BitVec 4) (a : BitVec 4)
  /-- VRSUM (R231): Dispatches row sum into hd. -/
  | vrsum (h : Hdr) (d : BitVec 4) (a : BitVec 4)
  /-- VRSUM_Q (R232): Dispatches row sum pushed to a queue register. -/
  | vrsumQ (h : Hdr) (n : BitVec 2) (a : BitVec 4)
  /-- VRMAX (R231): Dispatches row maximum into hd. -/
  | vrmax (h : Hdr) (d : BitVec 4) (a : BitVec 4)
  /-- VRMAX_Q (R232): Dispatches row maximum pushed to a queue. -/
  | vrmaxQ (h : Hdr) (n : BitVec 2) (a : BitVec 4)
  /-- VRMIN (R231): Dispatches row minimum into hd. -/
  | vrmin (h : Hdr) (d : BitVec 4) (a : BitVec 4)
  /-- VRMIN_Q (R232): Dispatches row minimum pushed to a queue. -/
  | vrminQ (h : Hdr) (n : BitVec 2) (a : BitVec 4)
  /-- VSCAN (R233): Dispatches inclusive or exclusive row prefix sum. -/
  | vscan (h : Hdr) (d : BitVec 4) (a : BitVec 4) (m : BitVec 1)
  /-- VGATH (R234): Dispatches indexed gather. -/
  | vgath (h : Hdr) (d : BitVec 4) (a : BitVec 4) (b : BitVec 4)
  /-- VSCAT (R235): Dispatches indexed scatter. -/
  | vscat (h : Hdr) (d : BitVec 4) (a : BitVec 4) (b : BitVec 4)
  /-- VRNG (R236): Dispatches counter-hash random fill. -/
  | vrng (h : Hdr) (d : BitVec 4) (s : BitVec 4)
  /-- VDROP (R237): Dispatches dropout mask fill. -/
  | vdrop (h : Hdr) (d : BitVec 4) (s : BitVec 3)
  /-- VNORM (R238): Dispatches row normalisation with gain. -/
  | vnorm (h : Hdr) (d : BitVec 4) (a : BitVec 4) (b : BitVec 4) (s : BitVec 5)
  /-- VSMAX (R239): Dispatches row softmax. -/
  | vsmax (h : Hdr) (d : BitVec 4) (a : BitVec 4) (s : BitVec 6)
  /-- MCFG (R254): Dispatches co-operative group width and member configuration. -/
  | mcfg (h : Hdr) (m : BitVec 4) (k : BitVec 2)
  /-- MWL (R255): Dispatches a weight load into the shadow plane. -/
  | mwl (h : Hdr) (x : BitVec 4)
  /-- MWS (R256): Dispatches the swap of active and shadow planes. -/
  | mws (h : Hdr)
  /-- MMS (R258): Dispatches streaming matrix multiply accumulating into a tile. -/
  | mms (h : Hdr) (x : BitVec 4) (k : BitVec 3) (p : BitVec 3) (s : BitVec 6)
  /-- MMSZ (R258): Dispatches streaming matrix multiply overwriting a tile. -/
  | mmsz (h : Hdr) (x : BitVec 4) (k : BitVec 3) (p : BitVec 3) (s : BitVec 6)
  /-- MSCL_C (R260): Dispatches column scaling of a tile. -/
  | msclC (h : Hdr) (x : BitVec 4) (k : BitVec 3)
  /-- MSCL_R (R260): Dispatches row scaling of a tile. -/
  | msclR (h : Hdr) (x : BitVec 4) (k : BitVec 3)
  /-- MSCL_K (R257): Dispatches replacement of the shadow plane's scales. -/
  | msclK (h : Hdr) (x : BitVec 4)
  /-- MZA (R261): Dispatches zeroing of k accumulator banks. -/
  | mza (h : Hdr) (k : BitVec 3) (n : BitVec 3)
  /-- MRD (R262): Dispatches a tile read into a handle with rounding mode. -/
  | mrd (h : Hdr) (x : BitVec 4) (k : BitVec 3) (i : BitVec 1) (m : BitVec 2)
  /-- MWR (R263): Dispatches a handle write into a tile. -/
  | mwr (h : Hdr) (x : BitVec 4) (k : BitVec 3) (i : BitVec 1)
  /-- MDRN (R264): Dispatches drain that empties both planes. -/
  | mdrn (h : Hdr)
  /-- MSTAT (R265): Dispatches a push of the MSTAT register to a queue. -/
  | mstat (h : Hdr) (n : BitVec 2)
  /-- XCPY (R272): Dispatches a local element copy. -/
  | xcpy (h : Hdr) (d : BitVec 4) (s : BitVec 4)
  /-- XTRN (R273): Dispatches a local transpose. -/
  | xtrn (h : Hdr) (d : BitVec 4) (s : BitVec 4)
  /-- XFILL (R274): Dispatches a local fill with a register pattern. -/
  | xfill (h : Hdr) (d : BitVec 4) (a : BitVec 6)
  /-- XPUT (R289): Dispatches a transfer to a logical core window. -/
  | xput (h : Hdr) (s : BitVec 4) (a : BitVec 5) (c : BitVec 2) (q : BitVec 2)
  /-- XGET (R289): Dispatches a transfer from a logical core window or fault records. -/
  | xget (h : Hdr) (d : BitVec 4) (a : BitVec 5) (c : BitVec 2) (q : BitVec 2)
  /-- XPF (R292): Dispatches a prefetch from virtual memory into a staging slot. -/
  | xpf (h : Hdr) (a : BitVec 4) (c : BitVec 2)
  /-- XLD (R293): Dispatches a load from staging. -/
  | xld (h : Hdr) (d : BitVec 4) (a : BitVec 5) (c : BitVec 2) (q : BitVec 2)
  /-- XST (R294): Dispatches a store into staging with queued write-back. -/
  | xst (h : Hdr) (s : BitVec 4) (a : BitVec 4) (c : BitVec 2) (q : BitVec 2)
  /-- XLDG (R296): Dispatches a group reduction through the prism tree. -/
  | xldg (h : Hdr) (d : BitVec 4) (a : BitVec 5) (c : BitVec 2) (m : BitVec 2)
  /-- XBC (R290): Dispatches a broadcast to every group member. -/
  | xbc (h : Hdr) (s : BitVec 4) (a : BitVec 5) (c : BitVec 2) (q : BitVec 2)
  /-- XATM_GRP (R299): Dispatches a 32-bit atomic at group scope. -/
  | xatmGrp (h : Hdr) (o : BitVec 4) (s : BitVec 4) (a : BitVec 5) (c : BitVec 2) (m : BitVec 3)
  /-- XATM_GANG (R299): Dispatches a 32-bit atomic at gang scope. -/
  | xatmGang (h : Hdr) (o : BitVec 4) (s : BitVec 4) (a : BitVec 5) (c : BitVec 2) (m : BitVec 3)
  /-- XATM_DEV (R299): Dispatches a 32-bit atomic at device scope. -/
  | xatmDev (h : Hdr) (o : BitVec 4) (s : BitVec 4) (a : BitVec 5) (c : BitVec 2) (m : BitVec 3)
  /-- XATM_SYS (R299): Dispatches a 32-bit atomic at system scope. -/
  | xatmSys (h : Hdr) (o : BitVec 4) (s : BitVec 4) (a : BitVec 5) (c : BitVec 2) (m : BitVec 3)
  /-- XGTH (R301): Dispatches a row gather from staging by an index list. -/
  | xgth (h : Hdr) (d : BitVec 4) (s : BitVec 4) (a : BitVec 5) (c : BitVec 2)
  /-- XENC (R302): Dispatches rows into an encoder line queue. -/
  | xenc (h : Hdr) (s : BitVec 4) (a : BitVec 5) (c : BitVec 2) (e : BitVec 1)
  /-- XDEC (R302): Dispatches a pull from a decoder output queue. -/
  | xdec (h : Hdr) (d : BitVec 4) (a : BitVec 5) (c : BitVec 2)
  /-- XOVL (R303): Dispatches an overlay image load into instruction memory. -/
  | xovl (h : Hdr) (a : BitVec 5) (c : BitVec 2)
  /-- XSIG (R304): Dispatches an add to or set of a signal slot. -/
  | xsig (h : Hdr) (a : BitVec 6) (c : BitVec 2) (m : BitVec 1)
  /-- XLAUNCH (R305): Dispatches the append of a loop record to a queue. -/
  | xlaunch (h : Hdr) (s : BitVec 4) (a : BitVec 5) (c : BitVec 2)
  /-- XARM (R307): Adds a register count to a landing counter. -/
  | xarm (h : Hdr) (n : BitVec 3) (a : BitVec 6)
  /-- XARM_IMM (R307): Adds a LIMM count to a landing counter. -/
  | xarmImm (h : Hdr) (n : BitVec 3)
  /-- XWAIT (R308): Holds the E engine until a channel identifier is done. -/
  | xwait (h : Hdr) (a : BitVec 6) (c : BitVec 2)
  /-- XWAIT_L (R308): Holds the E engine until a landing counter reaches zero. -/
  | xwaitL (h : Hdr) (n : BitVec 3)
  /-- XFENCE (R309): Holds the E engine until earlier transfers on the channel are done. -/
  | xfence (h : Hdr) (c : BitVec 2)
  /-- XRDEV (R306): Dispatches a contribution to a peer reduction block. -/
  | xrdev (h : Hdr) (s : BitVec 4) (a : BitVec 5) (c : BitVec 2) (m : BitVec 2)
  /-- IMPRECISE_REPORT_TAKEN (R197): A pending engine fault report is taken at an instruction boundary. -/
  | impreciseReportTaken (p : Nat)
  /-- TOKEN_WAIT_SATISFIED (R80): A held scalar instruction executes once its token waits are satisfied. -/
  | tokenWaitSatisfied (p : Nat)
  /-- DISPATCH_QUEUE_ROOM (R37): A dispatch held on a full engine queue proceeds once an entry frees. -/
  | dispatchQueueRoom (p : Nat)
  /-- FULL_EMPTY_WAIT_SATISFIED (R29): A W or C scalar load completes once its granules become full. -/
  | fullEmptyWaitSatisfied (p : Nat)
  /-- QPOP_ENTRY_ARRIVES (R183): A held QPOP takes an entry that enters its queue. -/
  | qpopEntryArrives (p : Nat)
  /-- SYNC_DRAINED (R179): Compute SYNC moves the core to READY once V, M and L are drained. -/
  | syncDrained (p : Nat)
  /-- V_STEP (R204): The vector engine performs one step of its head instruction, all effects or none. -/
  | vStep (p : Nat)
  /-- M_STEP (R252): The matrix engine performs one step of an instruction once R247 and R251 allow. -/
  | mStep (p k : Nat)
  /-- L_STEP (R271): The local copy engine performs one step of up to 512 destination bytes. -/
  | lStep (p : Nat)
  /-- HOLD_UNTIL_ENTRY_FREE (R36): An engine held pushing to a full queue register pushes once an entry is free. -/
  | holdUntilEntryFree (p : Nat) (e : Eng)
  /-- E_INSTRUCTION_BEGIN (R276): The exchange engine begins its head instruction, checking local addresses and translating. -/
  | eInstructionBegin (p : Nat)
  /-- WALK_END (R358): An outstanding translation walk ends, releasing the freeze when it is the last. -/
  | walkEnd (k : Nat)
  /-- TRANSFER_PIECE_LANDING (R285): A transfer piece lands at its destination, checking empty granules and counting landing bytes. -/
  | transferPieceLanding (p : Nat) (t : Nat) (k : Nat)
  /-- TRANSFER_COMPLETE (R277): The last acknowledgement returns and the transfer completes in issue order. -/
  | transferComplete (p : Nat)
  /-- XWAIT_SATISFIED (R308): A held XWAIT completes or raises XFAULT once its condition holds. -/
  | xwaitSatisfied (p : Nat)
  /-- XFENCE_DONE (R309): A held XFENCE completes once earlier transfers on its channel are done. -/
  | xfenceDone (p : Nat)
  /-- XOVL_HEADER_ARRIVES (R111): An overlay header arrives and is validated, invalidating pages or releasing the hold. -/
  | xovlHeaderArrives (p : Nat)
  /-- XOVL_IMAGE_COMPLETE (R111): The whole overlay image has arrived and CHECK is compared, validating or failing its pages. -/
  | xovlImageComplete (p : Nat)
  /-- PHASE_ADVANCE_ODD (R364): The Iris advances PHASE from even to odd once participants are READY or straggling. -/
  | phaseAdvanceOdd
  /-- QUIET_SWEEP_BEGIN (R365): The Iris begins a 16-cycle quiet sweep once all participants are XREADY and E-side conditions hold. -/
  | quietSweepBegin
  /-- PHASE_ADVANCE_EVEN (R365): After a clean quiet sweep the Iris advances PHASE from odd to even. -/
  | phaseAdvanceEven (emeas : Nat)
  /-- PHASE_BUS_DELIVERY (R366): A new PHASE value reaches a core's view and its held SYNC continues. -/
  | phaseBusDelivery (p : Nat)
  /-- FILL_GRANULE_ARRIVES (R292): Fill bytes arrive in a staging granule, which becomes full or poisoned. -/
  | fillGranuleArrives (k : Nat)
  /-- WRITE_BACK_DRAIN (R294): A staging write-back reaches device memory and its granule becomes empty. -/
  | writeBackDrain (k : Nat)
  /-- COMPUTE_TIMEOUT_EXPIRY (R367): The compute timer expires and unready participants are marked stragglers. -/
  | computeTimeoutExpiry
  /-- EXCHANGE_TIMEOUT_EXPIRY (R370): The exchange timer expires, failing in-flight transfers with TIMEOUT. -/
  | exchangeTimeoutExpiry
  /-- WATCHDOG_EXPIRY (R371): In deterministic mode the watchdog expiry faults contexts holding laggards. -/
  | watchdogExpiry
  /-- REGISTER_PARITY_ERROR (R344): A parity error in core registers causes a context fault. -/
  | registerParityError (p : Nat)
  /-- ICTL_WRITE (R363): Writes ICTL, refusing a DET change while PMASK is non-empty. -/
  | ictlWrite (v : BitVec 32)
  /-- SHOOTDOWN_PAGE (R360): SDCMD kind 0 removes entries for the page holding SDVA. -/
  | shootdownPage (asid : BitVec 12)
  /-- SHOOTDOWN_RANGE (R360): SDCMD kind 1 removes entries meeting SDLEN pages from SDVA. -/
  | shootdownRange (force : Bool) (asid : BitVec 12)
  /-- SHOOTDOWN_ASID (R360): SDCMD kind 2 removes every entry and the cached table entry of an ASID. -/
  | shootdownAsid (force : Bool) (asid : BitVec 12)
  /-- SHOOTDOWN_ALL (R360): SDCMD kind 3 removes every entry of every ASID. -/
  | shootdownAll (force : Bool)
  /-- COUNTER_FLUSH (R360): SDCMD kind 4 flushes hit counters without invalidation. -/
  | counterFlush
  /-- SHOOTDOWN_DONE (R361): DONE is set once map units finish and any running exchange ends. -/
  | shootdownDone
  /-- SHOOTDOWN_DRAINED (R361): DRAINED is set once fills and write-backs accepted earlier are performed. -/
  | shootdownDrained
  /-- QBELL (R379): Writing a queue index raises a DOORBELL event. -/
  | qbell (q : BitVec 32)
  /-- GRUN (R402): Delivers one predecessor signal to a graph node. -/
  | grun (v : BitVec 64)
  /-- CTXKILL (R410): Tears down a context, completing its records with CTXDEAD. -/
  | ctxkill (v : BitVec 32)
  /-- PREQ (R407): Flags a running gang for pre-emption. -/
  | preq (v : BitVec 32)
  /-- PREQ_CANCEL (R379): Cancels a pre-emption request for a gang origin. -/
  | preqCancel (v : BitVec 32)
  /-- PLSHAPE (R393): Starts a placement search for a gang of n cores. -/
  | plshape (v : BitVec 32)
  /-- LBGO (R388): Starts the launch bus on a loop record and gang. -/
  | lbgo
  /-- LAUNCH_ENTER_COMPUTE (R389): Launched members enter COMPUTE, join PMASK and the place record is written. -/
  | launchEnterCompute
  /-- RESIDENCY_FILLED (R396): A watched residency set becomes filled and RESIDENT is queued. -/
  | residencyFilled (k : Nat)
  /-- HART_RUN (R379): DCTL.RUN releases or holds the harts in reset. -/
  | hartRun (v : BitVec 32)
  /-- DEVT0 (R378): Pops the oldest hart event and returns its word 0. -/
  | devt0 (hart : Nat) (rd : Nat)
  /-- DTIME (R378): Reads TIME and latches DTIMEH. -/
  | dtime (hart : Nat) (rd : Nat)
  /-- DPHASE (R378): Reads PHASE and latches DPHASEH. -/
  | dphase (hart : Nat) (rd : Nat)
  /-- ATCMD (R380): Starts a hart window atomic on a physical word. -/
  | atcmd (hart : Nat) (v : BitVec 32)
  /-- DLW3_COMMIT (R405): Commits a microcode decision-log record of kind 4, 5, 6 or 8. -/
  | dlw3Commit (v : BitVec 32)
  /-- DLSIZE_WRITE (R379): Sets the log size and restarts DLHEAD counting. -/
  | dlsizeWrite (v : BitVec 32)
  /-- SSINS (R397): Inserts a key and tag into the slack sorter. -/
  | ssins (v : BitVec 32)
  /-- SSPOP (R397): Removes the sorter's top entry. -/
  | sspop
  /-- SSDEL (R397): Removes every sorter entry holding a tag. -/
  | ssdel (v : BitVec 32)
  /-- SLACKNEG (R397): TIME passes a held sorter key and SLACKNEG is queued. -/
  | slackneg
  /-- STREAM_RELEASE (R399): Microcode releases a stream frame at NEXTREL and fires its job. -/
  | streamRelease (sd : Nat)
  /-- SBCFG_WRITE (R403): Configures a tile scoreboard and clears both planes. -/
  | sbcfgWrite (n : Nat) (v : BitVec 32)
  /-- SBRET (R403): Retires a tile of plane 1 and evaluates releases. -/
  | sbret (n : Nat) (v : BitVec 32)
  /-- SBPASS (R403): Moves plane 1 to plane 0 and clears plane 1. -/
  | sbpass (n : Nat)
  /-- SBREL (R403): Pops a released tile from the scoreboard FIFO. -/
  | sbrel (n : Nat)
  /-- MIRROR_WRITE (R394): Writes a mirror entry, held until its physical core is ABSENT. -/
  | mirrorWrite (l : Nat) (v : BitVec 32)
  /-- CODEC_ENABLE (R415): Sets CCTL.EN after checking the session configuration. -/
  | codecEnable (e : Nat)
  /-- CODEC_DISABLE (R415): Clears CCTL.EN, ending the session. -/
  | codecDisable (e : Nat)
  /-- ENCODE_BLOCK_ROW (R419): The encoder codes a block row once its rows are present. -/
  | encodeBlockRow (e : Nat)
  /-- CHUNK_WRITE (R422): The encoder writes a chunk, its record and WRIDX once ring room exists. -/
  | chunkWrite (e : Nat)
  /-- MSIX_COALESCE_TIMEOUT (R423): CTIME elapses since the first pending record and an MSI-X message is sent. -/
  | msixCoalesceTimeout (e : Nat)
  /-- DECODE_CHUNK (R424): The decoder consumes a chunk and advances RDIDX. -/
  | decodeChunk (d : Nat)
  /-- PCIE_MEMORY_REQUEST (R333): A received PCI Express memory request is performed in function order. -/
  | pcieMemoryRequest (r : PcieReq)
  /-- PCIE_ATOMICOP (R435): A received AtomicOp is performed as SC by the owning atomic unit. -/
  | pcieAtomicop (r : PcieAtomic)
  /-- VQBELL (R434): A VF doorbell acts as QBELL for its own context's queue. -/
  | vqbell (vf : Nat) (q : BitVec 32)
  /-- LINK_TRAINING (R432): A PCI Express port trains to a speed and width. -/
  | linkTraining (port : Nat) (speed : Nat) (width : Nat)
  /-- PEER_BLOCK_ARM (R440): Arms a peer reduction block into COLLECT. -/
  | peerBlockArm (b : Nat)
  /-- PEER_BLOCK_CANCEL (R440): Returns a peer reduction block to IDLE. -/
  | peerBlockCancel (b : Nat)
  /-- PEER_CONTRIB (R443): A contribution message arrives at the home and is buffered or dropped. -/
  | peerContrib (port : Nat) (m : PeerMsg)
  /-- PEER_ACK (R442): An acknowledgement completes or fails the contributing XRDEV. -/
  | peerAck (port : Nat) (m : PeerMsg)
  /-- PEER_DONE (R444): A DONE message completes the member's signal slot and sets DONE. -/
  | peerDone (port : Nat) (m : PeerMsg)
  /-- DCMD_HALT (R447): Halts a core at its next instruction boundary. -/
  | dcmdHalt (v : BitVec 32)
  /-- DCMD_RESUME (R447): Resumes a HALTED core to its previous phase state. -/
  | dcmdResume (v : BitVec 32)
  /-- DCMD_STEP (R451): Steps one user instruction then halts. -/
  | dcmdStep (v : BitVec 32)
  /-- DCMD_STEP_D (R451): Steps one user instruction and halts once its engine tokens are done. -/
  | dcmdStepD (v : BitVec 32)
  /-- STEP_STOP (R451): A step ends and the core halts or takes STEP. -/
  | stepStop (p : Nat)
  /-- STOP_ARM (R454): Arms a stop by interval, logical core and count. -/
  | stopArm (v : BitVec 32)
  /-- STOP_FIRES (R454): A core's UCNT reaches the armed count and it halts. -/
  | stopFires (p : Nat)
  /-- DEBUG_WINDOW_ACCESS (R448): The debug unit reads or writes a HALTED core's window immediately. -/
  | debugWindowAccess (p : Nat) (off : Nat) (n : Nat) (data : Option Nat)
  /-- TRACE_RECORD_WRITE (R460): A trace record is written from the FIFO to the trace buffer. -/
  | traceRecordWrite (p : Nat)
  /-- RESET_RELEASE (R464): Reset is released and stage 0 begins. -/
  | resetRelease
  /-- STAGE_1_ENTRY (R467): The firmware image is verified and stage 1 begins. -/
  | stage1Entry
  /-- STAGE_2_ENTRY (R464): Self-test and training complete, microcode loads and cores are released. -/
  | stage2Entry
  /-- LOADFW (R468): Verifies an image in MBBUF and runs it from controller SRAM. -/
  | loadfw
  /-- WRITEFW (R468): Verifies an image and programs flash. -/
  | writefw
  /-- LOADUC (R469): Loads verified distributor microcode from MBBUF. -/
  | loaduc
  /-- SETOWNER (R469): Fuses the owner digest once. -/
  | setowner
  /-- MAILBOX_RESET (R469): Returns the device to stage 0 discarding all contexts. -/
  | mailboxReset
  /-- GET_VERSION (R470): SPDM GET_VERSION over DOE. -/
  | getVersion
  /-- GET_CAPABILITIES (R470): SPDM GET_CAPABILITIES over DOE. -/
  | getCapabilities
  /-- NEGOTIATE_ALGORITHMS (R470): SPDM NEGOTIATE_ALGORITHMS over DOE. -/
  | negotiateAlgorithms (sigAlgs : List Nat)
  /-- GET_DIGESTS (R470): SPDM GET_DIGESTS over DOE. -/
  | getDigests
  /-- GET_CERTIFICATE (R470): SPDM GET_CERTIFICATE over DOE. -/
  | getCertificate (slot : Nat)
  /-- CHALLENGE (R470): SPDM CHALLENGE signed with the device identity key. -/
  | challenge (nonce : List (BitVec 8))
  /-- GET_MEASUREMENTS (R470): SPDM GET_MEASUREMENTS returning SHAKE256 digests. -/
  | getMeasurements (index : Nat) (nonce : List (BitVec 8))
  /-- POWER_SAMPLE (R472): Every 10 µs the power controller compares mean power with PLIM and adjusts NSW. -/
  | powerSample (mw : Nat)
  /-- RAIL_OVERCURRENT (R472): A rail exceeds peak current, requesting throttling or a device fault. -/
  | railOvercurrent (rail : Rail) (current : RailCurrent)
  /-- OVERCURRENT_REQUEST_END (R472): The 1,024-frame current request expires. -/
  | overcurrentRequestEnd
  /-- THERMAL_LIMIT (R472): Junction temperature crosses 100 °C or 115 °C. -/
  | thermalLimit (degc : Nat)
  /-- DROOP_ALARM (R473): A core's droop detector asserts and half-array mode begins. -/
  | droopAlarm (v : CoreVoltage)
  /-- HALF_ARRAY_SPAN_END (R253): 4,096 cycles after the last alarm the alarm span ends. -/
  | halfArraySpanEnd (p : Nat)
  /-- REGISTER_WRITE (R6): A write to a memory-mapped register that has no behaviour of its own. -/
  | registerWrite (pa : Nat) (v : BitVec 32)
  /-- UNALLOCATED_WORD (R66): The front end meets an unallocated class, cell or sub-format, a word excluded by R66, or a word with non-zero reserved bits, and raises ILLEGAL. -/
  | unallocatedWord (sub : BitVec 3) (etval : BitVec 32)
  /-- INSTRUCTION_FETCH_FAULT (R63): A word the front end must read lies in an invalid or non-executable page, or is poisoned, and IFETCH or POISON is raised before any instruction is decoded. -/
  | instructionFetchFault (word : Nat) (cause : FetchFault)
  /-- HART_LOAD_STORE (R332): A distributor hart performs a load or store to device memory, signal slots or a core window through its aperture. -/
  | hartLoadStore (hart : Nat) (addr : BitVec 32) (n : Nat) (signed : Bool) (rd : Nat) (store : Option (BitVec 32))
  /-- SRAM_BIT_ERROR (R345): A stored SRAM word is corrupted by a bit error, which a later read corrects or rewrites as poisoned. -/
  | sramBitError (site : SramSite)
  /-- MESH_LINK_UNCORRECTABLE_ERROR (R431): An uncorrectable error on a mesh link poisons the affected words of a flit at the receiver. -/
  | meshLinkUncorrectableError (p : Nat) (t : Nat) (k : Nat)
  /-- LINK_DOWN (R438): A PCI Express port's link is lost and PLINK.SPEED reads 0. -/
  | linkDown (port : Nat)
  /-- PCIE_CONFIGURATION_REQUEST (R433): The host writes configuration space, for example to enable virtual functions or set NumVFs, changing function and MSI-X vector assignment. -/
  | pcieConfigurationRequest (w : ConfigWrite)
  /-- DROOP_ALARM_DEASSERT (R253): A core's droop alarm deasserts as local VCORE recovers, starting the 4,096-cycle tail of the alarm span. -/
  | droopAlarmDeassert (v : CoreVoltage)
  /-- DECODER_ROW_OUTPUT (R424): A decoder finishes decoding rows of a picture and writes them into its output queues when there is room. -/
  | decoderRowOutput (d : Nat)
  /-- RESET_ASSERTION (R464): Device reset is asserted and every state takes its reset value. -/
  | resetAssertion
deriving DecidableEq, Repr

end Sys2Proof
end

