-- ==== Sys2Proof/WellFormed.lean ====
section
/-! DEFINITION. What makes an instruction well formed: the checks of steps 2 to 4 of R67 that look at
the value of a field, each named for the CAUSE.SUB of R68 it raises. -/

namespace Sys2Proof

/-- The header of an instruction word; none for a step of an agent. -/
def Instr.hdr : Instr → Option Hdr
  | .add h _ _ _ _ => some h
  | .sub h _ _ _ _ => some h
  | .and h _ _ _ _ => some h
  | .or h _ _ _ _ => some h
  | .xor h _ _ _ _ => some h
  | .andn h _ _ _ _ => some h
  | .shl h _ _ _ => some h
  | .shr h _ _ _ => some h
  | .sra h _ _ _ => some h
  | .rot h _ _ _ => some h
  | .min h _ _ _ => some h
  | .max h _ _ _ => some h
  | .minu h _ _ _ => some h
  | .maxu h _ _ _ => some h
  | .cmpEq h _ _ _ _ => some h
  | .cmpNe h _ _ _ _ => some h
  | .cmpLt h _ _ _ _ => some h
  | .cmpLe h _ _ _ _ => some h
  | .cmpLtu h _ _ _ _ => some h
  | .cmpLeu h _ _ _ _ => some h
  | .sel h _ _ _ _ _ => some h
  | .mul h _ _ _ => some h
  | .mulh h _ _ _ => some h
  | .mulhu h _ _ _ => some h
  | .div h _ _ _ => some h
  | .divu h _ _ _ => some h
  | .rem h _ _ _ => some h
  | .remu h _ _ _ => some h
  | .clz h _ _ => some h
  | .ctz h _ _ => some h
  | .popc h _ _ => some h
  | .brev h _ _ => some h
  | .bilv2 h _ _ _ => some h
  | .bilv3 h _ _ _ => some h
  | .bdlv2 h _ _ _ => some h
  | .bdlv3 h _ _ _ => some h
  | .bfx h _ _ _ => some h
  | .bfi h _ _ _ => some h
  | .fadd h _ _ _ => some h
  | .fmul h _ _ _ => some h
  | .fma h _ _ _ => some h
  | .fmin h _ _ _ => some h
  | .fmax h _ _ _ => some h
  | .fcvtFI h _ _ => some h
  | .fcvtFU h _ _ => some h
  | .fcvtIF h _ _ => some h
  | .fcvtUF h _ _ => some h
  | .fcmpEq h _ _ _ => some h
  | .fcmpLt h _ _ _ => some h
  | .fcmpLe h _ _ _ => some h
  | .fcmpUn h _ _ _ => some h
  | .addi h _ _ _ => some h
  | .andi h _ _ _ => some h
  | .ori h _ _ _ => some h
  | .xori h _ _ _ => some h
  | .shli h _ _ _ => some h
  | .shri h _ _ _ => some h
  | .srai h _ _ _ => some h
  | .movi h _ _ => some h
  | .cmpiEq h _ _ _ => some h
  | .cmpiNe h _ _ _ => some h
  | .cmpiLt h _ _ _ => some h
  | .cmpiLe h _ _ _ => some h
  | .cmpiLtu h _ _ _ => some h
  | .cmpiLeu h _ _ _ => some h
  | .ldB h _ _ _ => some h
  | .ldH h _ _ _ => some h
  | .ld h _ _ _ _ => some h
  | .ldW h _ _ _ _ => some h
  | .ldC h _ _ _ _ => some h
  | .stB h _ _ _ => some h
  | .stH h _ _ _ => some h
  | .st h _ _ _ _ => some h
  | .stE h _ _ _ _ => some h
  | .ldp h _ _ _ _ => some h
  | .ldh h _ _ _ => some h
  | .sth h _ _ _ => some h
  | .feq h _ _ _ => some h
  | .feset h _ _ _ => some h
  | .feclr h _ _ _ => some h
  | .br h _ => some h
  | .brl h _ => some h
  | .loop h _ _ => some h
  | .loopi h _ _ => some h
  | .jr h _ _ => some h
  | .jrl h _ _ => some h
  | .csrr h _ _ _ => some h
  | .csrw h _ _ _ => some h
  | .csrs h _ _ _ => some h
  | .csrc h _ _ _ => some h
  | .pand h _ _ _ => some h
  | .por h _ _ _ => some h
  | .pxor h _ _ _ => some h
  | .pnot h _ _ => some h
  | .pmov h _ _ => some h
  | .nop h => some h
  | .sync h => some h
  | .iter h => some h
  | .eret h => some h
  | .svc h _ => some h
  | .bkpt h _ => some h
  | .qpop h _ _ => some h
  | .qstat h _ _ => some h
  | .rng h _ _ => some h
  | .lendM h _ => some h
  | .lendV h _ => some h
  | .vadd h _ _ _ _ => some h
  | .vsub h _ _ _ _ => some h
  | .vmul h _ _ _ _ => some h
  | .vfma h _ _ _ _ => some h
  | .vmin h _ _ _ _ => some h
  | .vmax h _ _ _ _ => some h
  | .vabs h _ _ => some h
  | .vneg h _ _ => some h
  | .vrcp h _ _ => some h
  | .vrsq h _ _ => some h
  | .vexp2 h _ _ => some h
  | .vlog2 h _ _ => some h
  | .vsin h _ _ => some h
  | .vcos h _ _ => some h
  | .vtanh h _ _ => some h
  | .vsigm h _ _ => some h
  | .viadd h _ _ _ _ => some h
  | .visub h _ _ _ _ => some h
  | .vimul h _ _ _ _ => some h
  | .vand h _ _ _ _ => some h
  | .vor h _ _ _ _ => some h
  | .vxor h _ _ _ _ => some h
  | .vshl h _ _ _ _ => some h
  | .vshr h _ _ _ _ => some h
  | .vsra h _ _ _ _ => some h
  | .vclz h _ _ => some h
  | .vpopc h _ _ => some h
  | .vbilv h _ _ _ _ => some h
  | .vcmpEq h _ _ _ _ => some h
  | .vcmpNe h _ _ _ _ => some h
  | .vcmpLt h _ _ _ _ => some h
  | .vcmpLe h _ _ _ _ => some h
  | .vmsel h _ _ _ _ => some h
  | .vmselM h _ _ _ => some h
  | .vcvt h _ _ _ _ => some h
  | .vqnt h _ _ _ => some h
  | .vdqt h _ _ _ => some h
  | .vpermb h _ _ _ => some h
  | .vshuf h _ _ _ => some h
  | .vbcast h _ _ _ => some h
  | .vmov h _ _ => some h
  | .vrsum h _ _ => some h
  | .vrsumQ h _ _ => some h
  | .vrmax h _ _ => some h
  | .vrmaxQ h _ _ => some h
  | .vrmin h _ _ => some h
  | .vrminQ h _ _ => some h
  | .vscan h _ _ _ => some h
  | .vgath h _ _ _ => some h
  | .vscat h _ _ _ => some h
  | .vrng h _ _ => some h
  | .vdrop h _ _ => some h
  | .vnorm h _ _ _ _ => some h
  | .vsmax h _ _ _ => some h
  | .mcfg h _ _ => some h
  | .mwl h _ => some h
  | .mws h => some h
  | .mms h _ _ _ _ => some h
  | .mmsz h _ _ _ _ => some h
  | .msclC h _ _ => some h
  | .msclR h _ _ => some h
  | .msclK h _ => some h
  | .mza h _ _ => some h
  | .mrd h _ _ _ _ => some h
  | .mwr h _ _ _ => some h
  | .mdrn h => some h
  | .mstat h _ => some h
  | .xcpy h _ _ => some h
  | .xtrn h _ _ => some h
  | .xfill h _ _ => some h
  | .xput h _ _ _ _ => some h
  | .xget h _ _ _ _ => some h
  | .xpf h _ _ => some h
  | .xld h _ _ _ _ => some h
  | .xst h _ _ _ _ => some h
  | .xldg h _ _ _ _ => some h
  | .xbc h _ _ _ _ => some h
  | .xatmGrp h _ _ _ _ _ => some h
  | .xatmGang h _ _ _ _ _ => some h
  | .xatmDev h _ _ _ _ _ => some h
  | .xatmSys h _ _ _ _ _ => some h
  | .xgth h _ _ _ _ => some h
  | .xenc h _ _ _ _ => some h
  | .xdec h _ _ _ => some h
  | .xovl h _ _ => some h
  | .xsig h _ _ _ => some h
  | .xlaunch h _ _ _ => some h
  | .xarm h _ _ => some h
  | .xarmImm h _ => some h
  | .xwait h _ _ => some h
  | .xwaitL h _ => some h
  | .xfence h _ => some h
  | .xrdev h _ _ _ _ => some h
  | _ => none

/-- How a cell treats a LIMM prefix (R75, R76, and the LIMM columns of R89 to R95). -/
inductive LimmUse where
  | refused | allowed | required | topZero (bits : Nat)
deriving DecidableEq, Repr

/-- The LIMM column of each cell. -/
def limmUse : Instr → LimmUse
  | .addi .. | .andi .. | .ori .. | .xori .. | .movi .. => .allowed
  | .cmpiEq .. | .cmpiNe .. | .cmpiLt .. | .cmpiLe .. | .cmpiLtu .. | .cmpiLeu .. => .allowed
  | .ldB .. | .ldH .. | .ld .. | .ldW .. | .ldC .. | .stB .. | .stH .. | .st .. | .stE .. => .allowed
  | .ldp .. | .ldh .. | .sth .. | .feq .. | .feset .. | .feclr .. => .allowed
  | .loopi .. => .topZero 22
  | .xput .. | .xget .. | .xld .. | .xst .. | .xldg .. | .xbc .. | .xgth .. | .xenc .. => .allowed
  | .xdec .. | .xsig .. | .xrdev .. => .allowed
  | .xpf .. => .required
  | .xarmImm .. => .topZero 24
  | _ => .refused

/-- SUB 4: the LIMM of an instruction is one its cell accepts. XARM with a LIMM is XARM_IMM. -/
def limmOk (i : Instr) : Bool :=
  match i.hdr with
  | none => true
  | some h =>
    match limmUse i, h.limm with
    | .refused, some _ => false
    | .required, none => false
    | .topZero k, some v => v.toNat < 2 ^ k
    | _, _ => true

/-- XARM_IMM is the cell with its LIMM (R307): without one it is XARM. -/
def limmShape : Instr → Bool
  | .xarmImm h _ => h.limm.isSome
  | _ => true

/-- R77: distance 0x7F means no wait, and the engine code must then be 0. -/
def waitFieldOk (f : BitVec 9) : Bool :=
  f.toNat % 128 != 127 || f.toNat / 128 == 0

/-- SUB 1 of the TOK word (R77). -/
def tokOk : Option Tok → Bool
  | none => true
  | some t => waitFieldOk t.wa && waitFieldOk t.wb && waitFieldOk t.wc

/-- R83: where operands read "hb or ss", HB must be 0 beside a broadcast scalar. -/
def bothOperands (b : BitVec 4) (s : BitVec 6) : Bool := b != 0 && s != 0

/-- SUB 1: a guard other than p0 on SYNC, ITER or ERET (R70), or both of two operands of which a cell
takes one (R83, R229). -/
def unusedSet : Instr → Bool
  | .sync h | .iter h | .eret h => h.g != 0
  | .vadd _ _ _ b s | .vsub _ _ _ b s | .vmul _ _ _ b s | .vfma _ _ _ b s
  | .vmin _ _ _ b s | .vmax _ _ _ b s => bothOperands b s
  | .viadd _ _ _ b s | .visub _ _ _ b s | .vimul _ _ _ b s | .vand _ _ _ b s | .vor _ _ _ b s
  | .vxor _ _ _ b s | .vshl _ _ _ b s | .vshr _ _ _ b s | .vsra _ _ _ b s => bothOperands b s
  | .vcmpEq _ _ _ b s | .vcmpNe _ _ _ b s | .vcmpLt _ _ _ b s | .vcmpLe _ _ _ b s =>
    bothOperands b s
  | .vbcast _ _ a s => bothOperands a s
  | _ => false

/-- A register number is no multiple of its group's size (R15). -/
def offGroup (w r : Nat) : Bool := r % 2 ^ w != 0

/-- SUB 3: a register group is misaligned (R15, R72). -/
def misaligned : Instr → Bool
  | .add _ w d a b | .sub _ w d a b =>
    offGroup w.toNat d.toNat || offGroup w.toNat a.toNat || offGroup w.toNat b.toNat
  | .and _ w d a b | .or _ w d a b | .xor _ w d a b | .andn _ w d a b | .sel _ _ w d a b =>
    offGroup w.toNat d.toNat || offGroup w.toNat a.toNat || offGroup w.toNat b.toNat
  | .cmpEq _ w _ a b | .cmpNe _ w _ a b | .cmpLt _ w _ a b | .cmpLe _ w _ a b
  | .cmpLtu _ w _ a b | .cmpLeu _ w _ a b => offGroup w.toNat a.toNat || offGroup w.toNat b.toNat
  | .ld _ w d _ _ | .ldW _ w d _ _ | .ldC _ w d _ _ | .st _ w d _ _ | .stE _ w d _ _
  | .ldp _ w d _ _ => offGroup w.toNat d.toNat
  | .csrr _ w d c | .csrw _ w d c | .csrs _ w d c | .csrc _ w d c =>
    offGroup w.toNat d.toNat || offGroup w.toNat c.toNat
  | _ => false

/-- The CSR indexes that the table of R45 lists. -/
def csrListed (c : Nat) : Bool :=
  c ≤ 0x005 || (0x010 ≤ c && c ≤ 0x017) || (0x020 ≤ c && c ≤ 0x027) || (0x030 ≤ c && c ≤ 0x033) ||
  (0x040 ≤ c && c ≤ 0x055) || c == 0x060 || c == 0x061 || (0x070 ≤ c && c ≤ 0x075) ||
  c == 0x080 || c == 0x081 || (0x0C0 ≤ c && c ≤ 0x0C3) || c == 0x0F0 ||
  (0x100 ≤ c && c ≤ 0x10C) || c == 0x110

/-- An access of a CSR or of a pair (R72): every index it names is listed. -/
def csrAccessListed (w : BitVec 1) (c : BitVec 12) : Bool :=
  csrListed c.toNat && (w == 0 || csrListed (c.toNat + 1))

/-- SUB 5: a field holds a code its cell does not permit. -/
def badCode : Instr → Bool
  | .csrr _ w _ c | .csrw _ w _ c | .csrs _ w _ c | .csrc _ w _ c => !csrAccessListed w c
  | .vdrop _ _ s => s == 0
  | .mcfg _ m k => 2 ^ k.toNat ≤ m.toNat
  | .mms _ _ _ p _ | .mmsz _ _ _ p _ => p == 0 || 4 < p.toNat
  | .mza _ k n => 7 < k.toNat + n.toNat
  | .xput _ _ _ _ q | .xget _ _ _ _ q | .xld _ _ _ _ q | .xst _ _ _ _ q | .xbc _ _ _ _ q => q == 3
  | .xrdev _ _ _ _ m => m == 3
  | .xatmGrp _ o _ _ _ m | .xatmGang _ o _ _ _ m | .xatmDev _ o _ _ _ m | .xatmSys _ o _ _ _ m =>
    9 ≤ o.toNat || 5 ≤ m.toNat
  | _ => false

/-- R66: ADD s0, s0, s0 with guard p0 would be the word 0x0000_0000, which is ILLEGAL. -/
def excludedWord : Instr → Bool
  | .add h w d a b => h.g == 0 && w == 0 && d == 0 && a == 0 && b == 0
  | _ => false

/-- An instruction that decoding can give. The steps of the agents have no words: nothing restricts
their operands here. -/
def Instr.wf (i : Instr) : Bool :=
  match i.hdr with
  | none => true
  | some h => limmOk i && limmShape i && tokOk h.tok && !unusedSet i && !misaligned i &&
      !badCode i && !excludedWord i

end Sys2Proof
end

