-- ==== Sys2Proof/Decode.lean ====
section
/-! DEFINITION. From words to instructions and back (02 R62 to R97). The encoder stands after the
decoder; both are written from the encoding tables of 02_instruction_formats.md. -/

namespace Sys2Proof

/-- A refused instruction: the CAUSE.SUB of R68 and the word ETVAL takes. -/
structure Reject where
  sub : Nat
  etval : Nat
deriving DecidableEq, Repr

/-- A field of a main word. -/
def fld (w hi lo : Nat) {n : Nat} : BitVec n := BitVec.ofNat n (bits w hi lo)

/-- A run of bits that is not all zero. -/
def nz (w hi lo : Nat) : Bool := bits w hi lo != 0

/-- What the word of an allocated cell holds: the instruction, and whether bits that must be zero are
not, by the CAUSE.SUB they raise: 1 reserved or unused, 3 alignment of a register number, 5 a code. -/
structure Raw where
  instr : Instr
  r1 : Bool
  r3 : Bool
  r5 : Bool
deriving DecidableEq, Repr

/-- Class 0x0 (R87). -/
def decodeSr0 (h : Hdr) (w : Nat) : Option Raw :=
  match bits w 27 23 with
  | 0 => some ⟨.add h (fld w 21 21) (fld w 20 15) (fld w 14 9) (fld w 8 3), false, false, nz w 22 22⟩
  | 1 => some ⟨.sub h (fld w 21 21) (fld w 20 15) (fld w 14 9) (fld w 8 3), false, false, nz w 22 22⟩
  | 2 => some ⟨.and h (fld w 22 21) (fld w 20 15) (fld w 14 9) (fld w 8 3), false, false, false⟩
  | 3 => some ⟨.or h (fld w 22 21) (fld w 20 15) (fld w 14 9) (fld w 8 3), false, false, false⟩
  | 4 => some ⟨.xor h (fld w 22 21) (fld w 20 15) (fld w 14 9) (fld w 8 3), false, false, false⟩
  | 5 => some ⟨.andn h (fld w 22 21) (fld w 20 15) (fld w 14 9) (fld w 8 3), false, false, false⟩
  | 6 => some ⟨.shl h (fld w 20 15) (fld w 14 9) (fld w 8 3), false, false, nz w 22 21⟩
  | 7 => some ⟨.shr h (fld w 20 15) (fld w 14 9) (fld w 8 3), false, false, nz w 22 21⟩
  | 8 => some ⟨.sra h (fld w 20 15) (fld w 14 9) (fld w 8 3), false, false, nz w 22 21⟩
  | 9 => some ⟨.rot h (fld w 20 15) (fld w 14 9) (fld w 8 3), false, false, nz w 22 21⟩
  | 10 => some ⟨.min h (fld w 20 15) (fld w 14 9) (fld w 8 3), false, false, nz w 22 21⟩
  | 11 => some ⟨.max h (fld w 20 15) (fld w 14 9) (fld w 8 3), false, false, nz w 22 21⟩
  | 12 => some ⟨.minu h (fld w 20 15) (fld w 14 9) (fld w 8 3), false, false, nz w 22 21⟩
  | 13 => some ⟨.maxu h (fld w 20 15) (fld w 14 9) (fld w 8 3), false, false, nz w 22 21⟩
  | 16 => some ⟨.cmpEq h (fld w 21 21) (fld w 17 15) (fld w 14 9) (fld w 8 3), nz w 20 18, false, nz w 22 22⟩
  | 17 => some ⟨.cmpNe h (fld w 21 21) (fld w 17 15) (fld w 14 9) (fld w 8 3), nz w 20 18, false, nz w 22 22⟩
  | 18 => some ⟨.cmpLt h (fld w 21 21) (fld w 17 15) (fld w 14 9) (fld w 8 3), nz w 20 18, false, nz w 22 22⟩
  | 19 => some ⟨.cmpLe h (fld w 21 21) (fld w 17 15) (fld w 14 9) (fld w 8 3), nz w 20 18, false, nz w 22 22⟩
  | 20 => some ⟨.cmpLtu h (fld w 21 21) (fld w 17 15) (fld w 14 9) (fld w 8 3), nz w 20 18, false, nz w 22 22⟩
  | 21 => some ⟨.cmpLeu h (fld w 21 21) (fld w 17 15) (fld w 14 9) (fld w 8 3), nz w 20 18, false, nz w 22 22⟩
  | _ => if bits w 27 26 = 3 then some ⟨.sel h (fld w 25 23) (fld w 22 21) (fld w 20 15) (fld w 14 9) (fld w 8 3), false, false, false⟩ else none

/-- Class 0x1 (R88). BILV and BDLV take their mode from W, FCVT its kind from RB. -/
def decodeSr1 (h : Hdr) (w : Nat) : Option Raw :=
  match bits w 27 23 with
  | 0 => some ⟨.mul h (fld w 20 15) (fld w 14 9) (fld w 8 3), false, false, nz w 22 21⟩
  | 1 => some ⟨.mulh h (fld w 20 15) (fld w 14 9) (fld w 8 3), false, false, nz w 22 21⟩
  | 2 => some ⟨.mulhu h (fld w 20 15) (fld w 14 9) (fld w 8 3), false, false, nz w 22 21⟩
  | 3 => some ⟨.div h (fld w 20 15) (fld w 14 9) (fld w 8 3), false, false, nz w 22 21⟩
  | 4 => some ⟨.divu h (fld w 20 15) (fld w 14 9) (fld w 8 3), false, false, nz w 22 21⟩
  | 5 => some ⟨.rem h (fld w 20 15) (fld w 14 9) (fld w 8 3), false, false, nz w 22 21⟩
  | 6 => some ⟨.remu h (fld w 20 15) (fld w 14 9) (fld w 8 3), false, false, nz w 22 21⟩
  | 8 => some ⟨.clz h (fld w 20 15) (fld w 14 9), nz w 8 3, false, nz w 22 21⟩
  | 9 => some ⟨.ctz h (fld w 20 15) (fld w 14 9), nz w 8 3, false, nz w 22 21⟩
  | 10 => some ⟨.popc h (fld w 20 15) (fld w 14 9), nz w 8 3, false, nz w 22 21⟩
  | 11 => some ⟨.brev h (fld w 20 15) (fld w 14 9), nz w 8 3, false, nz w 22 21⟩
  | 12 => 
    (match bits w 22 21 with
    | 0 => some ⟨.bilv2 h (fld w 20 15) (fld w 14 9) (fld w 8 3), false, false, false⟩
    | 1 => some ⟨.bilv3 h (fld w 20 15) (fld w 14 9) (fld w 8 3), false, false, false⟩
    | _ => some ⟨.bilv2 h (fld w 20 15) (fld w 14 9) (fld w 8 3), false, false, true⟩)
  | 13 => 
    (match bits w 22 21 with
    | 0 => some ⟨.bdlv2 h (fld w 20 15) (fld w 14 9) (fld w 8 3), false, false, false⟩
    | 1 => some ⟨.bdlv3 h (fld w 20 15) (fld w 14 9) (fld w 8 3), false, false, false⟩
    | _ => some ⟨.bdlv2 h (fld w 20 15) (fld w 14 9) (fld w 8 3), false, false, true⟩)
  | 14 => some ⟨.bfx h (fld w 20 15) (fld w 14 9) (fld w 8 3), false, false, nz w 22 21⟩
  | 15 => some ⟨.bfi h (fld w 20 15) (fld w 14 9) (fld w 8 3), false, false, nz w 22 21⟩
  | 16 => some ⟨.fadd h (fld w 20 15) (fld w 14 9) (fld w 8 3), false, false, nz w 22 21⟩
  | 17 => some ⟨.fmul h (fld w 20 15) (fld w 14 9) (fld w 8 3), false, false, nz w 22 21⟩
  | 18 => some ⟨.fma h (fld w 20 15) (fld w 14 9) (fld w 8 3), false, false, nz w 22 21⟩
  | 19 => some ⟨.fmin h (fld w 20 15) (fld w 14 9) (fld w 8 3), false, false, nz w 22 21⟩
  | 20 => some ⟨.fmax h (fld w 20 15) (fld w 14 9) (fld w 8 3), false, false, nz w 22 21⟩
  | 21 => 
    (match bits w 8 3 with
    | 0 => some ⟨.fcvtFI h (fld w 20 15) (fld w 14 9), false, false, nz w 22 21⟩
    | 1 => some ⟨.fcvtFU h (fld w 20 15) (fld w 14 9), false, false, nz w 22 21⟩
    | 2 => some ⟨.fcvtIF h (fld w 20 15) (fld w 14 9), false, false, nz w 22 21⟩
    | 3 => some ⟨.fcvtUF h (fld w 20 15) (fld w 14 9), false, false, nz w 22 21⟩
    | _ => some ⟨.fcvtFI h (fld w 20 15) (fld w 14 9), false, false, true⟩)
  | 22 => some ⟨.fcmpEq h (fld w 17 15) (fld w 14 9) (fld w 8 3), nz w 20 18, false, nz w 22 21⟩
  | 23 => some ⟨.fcmpLt h (fld w 17 15) (fld w 14 9) (fld w 8 3), nz w 20 18, false, nz w 22 21⟩
  | 24 => some ⟨.fcmpLe h (fld w 17 15) (fld w 14 9) (fld w 8 3), nz w 20 18, false, nz w 22 21⟩
  | 25 => some ⟨.fcmpUn h (fld w 17 15) (fld w 14 9) (fld w 8 3), nz w 20 18, false, nz w 22 21⟩
  | _ => none

/-- Class 0x2 (R89). -/
def decodeSi (h : Hdr) (w : Nat) : Option Raw :=
  match bits w 27 24 with
  | 0 => some ⟨.addi h (fld w 23 18) (fld w 17 12) (fld w 11 3), false, false, false⟩
  | 1 => some ⟨.andi h (fld w 23 18) (fld w 17 12) (fld w 11 3), false, false, false⟩
  | 2 => some ⟨.ori h (fld w 23 18) (fld w 17 12) (fld w 11 3), false, false, false⟩
  | 3 => some ⟨.xori h (fld w 23 18) (fld w 17 12) (fld w 11 3), false, false, false⟩
  | 4 => some ⟨.shli h (fld w 23 18) (fld w 17 12) (fld w 7 3), nz w 11 8, false, false⟩
  | 5 => some ⟨.shri h (fld w 23 18) (fld w 17 12) (fld w 7 3), nz w 11 8, false, false⟩
  | 6 => some ⟨.srai h (fld w 23 18) (fld w 17 12) (fld w 7 3), nz w 11 8, false, false⟩
  | 7 => some ⟨.movi h (fld w 23 18) (fld w 11 3), nz w 17 12, false, false⟩
  | 8 => some ⟨.cmpiEq h (fld w 20 18) (fld w 17 12) (fld w 11 3), nz w 23 21, false, false⟩
  | 9 => some ⟨.cmpiNe h (fld w 20 18) (fld w 17 12) (fld w 11 3), nz w 23 21, false, false⟩
  | 10 => some ⟨.cmpiLt h (fld w 20 18) (fld w 17 12) (fld w 11 3), nz w 23 21, false, false⟩
  | 11 => some ⟨.cmpiLe h (fld w 20 18) (fld w 17 12) (fld w 11 3), nz w 23 21, false, false⟩
  | 12 => some ⟨.cmpiLtu h (fld w 20 18) (fld w 17 12) (fld w 11 3), nz w 23 21, false, false⟩
  | 13 => some ⟨.cmpiLeu h (fld w 20 18) (fld w 17 12) (fld w 11 3), nz w 23 21, false, false⟩
  | _ => none

/-- Class 0x3 (R90). -/
def decodeSm (h : Hdr) (w : Nat) : Option Raw :=
  match bits w 27 24 with
  | 0 => some ⟨.ldB h (fld w 21 16) (fld w 15 10) (fld w 9 3), false, false, nz w 23 22⟩
  | 1 => some ⟨.ldH h (fld w 21 16) (fld w 15 10) (fld w 9 3), false, false, nz w 23 22⟩
  | 2 => some ⟨.ld h (fld w 23 22) (fld w 21 16) (fld w 15 10) (fld w 9 3), false, false, false⟩
  | 3 => some ⟨.ldW h (fld w 23 22) (fld w 21 16) (fld w 15 10) (fld w 9 3), false, false, false⟩
  | 4 => some ⟨.ldC h (fld w 23 22) (fld w 21 16) (fld w 15 10) (fld w 9 3), false, false, false⟩
  | 5 => some ⟨.stB h (fld w 21 16) (fld w 15 10) (fld w 9 3), false, false, nz w 23 22⟩
  | 6 => some ⟨.stH h (fld w 21 16) (fld w 15 10) (fld w 9 3), false, false, nz w 23 22⟩
  | 7 => some ⟨.st h (fld w 23 22) (fld w 21 16) (fld w 15 10) (fld w 9 3), false, false, false⟩
  | 8 => some ⟨.stE h (fld w 23 22) (fld w 21 16) (fld w 15 10) (fld w 9 3), false, false, false⟩
  | 9 => some ⟨.ldp h (fld w 23 22) (fld w 21 16) (fld w 15 10) (fld w 9 3), false, false, false⟩
  | 10 => some ⟨.ldh h (fld w 19 16) (fld w 15 10) (fld w 9 3), nz w 21 20, false, nz w 23 22⟩
  | 11 => some ⟨.sth h (fld w 19 16) (fld w 15 10) (fld w 9 3), nz w 21 20, false, nz w 23 22⟩
  | 12 => some ⟨.feq h (fld w 18 16) (fld w 15 10) (fld w 9 3), nz w 21 19, false, nz w 23 22⟩
  | 13 => some ⟨.feset h (fld w 21 16) (fld w 15 10) (fld w 9 3), false, false, nz w 23 22⟩
  | 14 => some ⟨.feclr h (fld w 21 16) (fld w 15 10) (fld w 9 3), false, false, nz w 23 22⟩
  | _ => none

/-- Class 0x4 (R91). -/
def decodeBr (h : Hdr) (w : Nat) : Option Raw :=
  match bits w 27 26 with
  | 0 => some ⟨.br h (fld w 25 3), false, false, false⟩
  | 1 => some ⟨.brl h (fld w 25 3), false, false, false⟩
  | 2 => (match bits w 25 24 with
    | 0 => some ⟨.loop h (fld w 23 18) (fld w 17 3), false, false, false⟩
    | 1 => some ⟨.loopi h (fld w 23 14) (fld w 13 3), false, false, false⟩
    | _ => none)
  | _ => (match bits w 25 24 with
    | 0 => some ⟨.jr h (fld w 23 18) (fld w 17 3), false, false, false⟩
    | 1 => some ⟨.jrl h (fld w 23 18) (fld w 17 3), false, false, false⟩
    | _ => none)

/-- Class 0x5 (R92): GRP in [27:26] splits it. -/
def decodeSys (h : Hdr) (w : Nat) : Option Raw :=
  match bits w 27 26 with
  | 0 => (match bits w 25 24 with
    | 0 => some ⟨.csrr h (fld w 22 22) (fld w 21 16) (fld w 15 4), nz w 3 3, false, nz w 23 23⟩
    | 1 => some ⟨.csrw h (fld w 22 22) (fld w 21 16) (fld w 15 4), nz w 3 3, false, nz w 23 23⟩
    | 2 => some ⟨.csrs h (fld w 22 22) (fld w 21 16) (fld w 15 4), nz w 3 3, false, nz w 23 23⟩
    | _ => some ⟨.csrc h (fld w 22 22) (fld w 21 16) (fld w 15 4), nz w 3 3, false, nz w 23 23⟩)
  | 1 => (match bits w 25 22 with
    | 0 => some ⟨.pand h (fld w 21 19) (fld w 18 16) (fld w 15 13), nz w 12 3, false, false⟩
    | 1 => some ⟨.por h (fld w 21 19) (fld w 18 16) (fld w 15 13), nz w 12 3, false, false⟩
    | 2 => some ⟨.pxor h (fld w 21 19) (fld w 18 16) (fld w 15 13), nz w 12 3, false, false⟩
    | 3 => some ⟨.pnot h (fld w 21 19) (fld w 18 16), nz w 15 3, false, false⟩
    | 4 => some ⟨.pmov h (fld w 21 19) (fld w 18 16), nz w 15 3, false, false⟩
    | _ => none)
  | 2 => (match bits w 25 20 with
    | 0 => some ⟨.nop h, nz w 19 3, false, false⟩
    | 1 => some ⟨.sync h, nz w 19 3, false, false⟩
    | 2 => some ⟨.iter h, nz w 19 3, false, false⟩
    | 3 => some ⟨.eret h, nz w 19 3, false, false⟩
    | 4 => some ⟨.svc h (fld w 13 3), nz w 19 14, false, false⟩
    | 5 => some ⟨.bkpt h (fld w 13 3), nz w 19 14, false, false⟩
    | 6 => some ⟨.qpop h (fld w 19 14) (fld w 4 3), nz w 13 5, false, false⟩
    | 7 => some ⟨.qstat h (fld w 19 14) (fld w 4 3), nz w 13 5, false, false⟩
    | 8 => some ⟨.rng h (fld w 19 14) (fld w 13 9), nz w 7 3, nz w 8 8, false⟩
    | 9 => some ⟨.lendM h (fld w 5 3), nz w 19 6, false, false⟩
    | 10 => some ⟨.lendV h (fld w 5 3), nz w 19 6, false, false⟩
    | _ => none)
  | _ => none

/-- Class 0x8 (R93, R201). -/
def decodeVf (h : Hdr) (w : Nat) : Option Raw :=
  match bits w 27 22 with
  | 0 => some ⟨.vadd h (fld w 21 18) (fld w 17 14) (fld w 13 10) (fld w 9 4), nz w 3 3, false, false⟩
  | 1 => some ⟨.vsub h (fld w 21 18) (fld w 17 14) (fld w 13 10) (fld w 9 4), nz w 3 3, false, false⟩
  | 2 => some ⟨.vmul h (fld w 21 18) (fld w 17 14) (fld w 13 10) (fld w 9 4), nz w 3 3, false, false⟩
  | 3 => some ⟨.vfma h (fld w 21 18) (fld w 17 14) (fld w 13 10) (fld w 9 4), nz w 3 3, false, false⟩
  | 4 => some ⟨.vmin h (fld w 21 18) (fld w 17 14) (fld w 13 10) (fld w 9 4), nz w 3 3, false, false⟩
  | 5 => some ⟨.vmax h (fld w 21 18) (fld w 17 14) (fld w 13 10) (fld w 9 4), nz w 3 3, false, false⟩
  | 6 => some ⟨.vabs h (fld w 21 18) (fld w 17 14), nz w 13 3, false, false⟩
  | 7 => some ⟨.vneg h (fld w 21 18) (fld w 17 14), nz w 13 3, false, false⟩
  | 8 => some ⟨.vrcp h (fld w 21 18) (fld w 17 14), nz w 13 3, false, false⟩
  | 9 => some ⟨.vrsq h (fld w 21 18) (fld w 17 14), nz w 13 3, false, false⟩
  | 10 => some ⟨.vexp2 h (fld w 21 18) (fld w 17 14), nz w 13 3, false, false⟩
  | 11 => some ⟨.vlog2 h (fld w 21 18) (fld w 17 14), nz w 13 3, false, false⟩
  | 12 => some ⟨.vsin h (fld w 21 18) (fld w 17 14), nz w 13 3, false, false⟩
  | 13 => some ⟨.vcos h (fld w 21 18) (fld w 17 14), nz w 13 3, false, false⟩
  | 14 => some ⟨.vtanh h (fld w 21 18) (fld w 17 14), nz w 13 3, false, false⟩
  | 15 => some ⟨.vsigm h (fld w 21 18) (fld w 17 14), nz w 13 3, false, false⟩
  | 16 => some ⟨.viadd h (fld w 21 18) (fld w 17 14) (fld w 13 10) (fld w 9 4), nz w 3 3, false, false⟩
  | 17 => some ⟨.visub h (fld w 21 18) (fld w 17 14) (fld w 13 10) (fld w 9 4), nz w 3 3, false, false⟩
  | 18 => some ⟨.vimul h (fld w 21 18) (fld w 17 14) (fld w 13 10) (fld w 9 4), nz w 3 3, false, false⟩
  | 19 => some ⟨.vand h (fld w 21 18) (fld w 17 14) (fld w 13 10) (fld w 9 4), nz w 3 3, false, false⟩
  | 20 => some ⟨.vor h (fld w 21 18) (fld w 17 14) (fld w 13 10) (fld w 9 4), nz w 3 3, false, false⟩
  | 21 => some ⟨.vxor h (fld w 21 18) (fld w 17 14) (fld w 13 10) (fld w 9 4), nz w 3 3, false, false⟩
  | 22 => some ⟨.vshl h (fld w 21 18) (fld w 17 14) (fld w 13 10) (fld w 9 4), nz w 3 3, false, false⟩
  | 23 => some ⟨.vshr h (fld w 21 18) (fld w 17 14) (fld w 13 10) (fld w 9 4), nz w 3 3, false, false⟩
  | 24 => some ⟨.vsra h (fld w 21 18) (fld w 17 14) (fld w 13 10) (fld w 9 4), nz w 3 3, false, false⟩
  | 25 => some ⟨.vclz h (fld w 21 18) (fld w 17 14), nz w 13 3, false, false⟩
  | 26 => some ⟨.vpopc h (fld w 21 18) (fld w 17 14), nz w 13 3, false, false⟩
  | 27 => some ⟨.vbilv h (fld w 21 18) (fld w 17 14) (fld w 13 10) (fld w 3 3), nz w 9 4, false, false⟩
  | 32 => some ⟨.vcmpEq h (fld w 21 18) (fld w 17 14) (fld w 13 10) (fld w 9 4), nz w 3 3, false, false⟩
  | 33 => some ⟨.vcmpNe h (fld w 21 18) (fld w 17 14) (fld w 13 10) (fld w 9 4), nz w 3 3, false, false⟩
  | 34 => some ⟨.vcmpLt h (fld w 21 18) (fld w 17 14) (fld w 13 10) (fld w 9 4), nz w 3 3, false, false⟩
  | 35 => some ⟨.vcmpLe h (fld w 21 18) (fld w 17 14) (fld w 13 10) (fld w 9 4), nz w 3 3, false, false⟩
  | 36 => 
    (match bits w 3 3 with
    | 0 => some ⟨.vmsel h (fld w 21 18) (fld w 17 14) (fld w 13 10) (fld w 9 4), false, false, false⟩
    | _ => some ⟨.vmselM h (fld w 21 18) (fld w 17 14) (fld w 13 10), nz w 9 4, false, false⟩)
  | 40 => some ⟨.vcvt h (fld w 21 18) (fld w 17 14) (fld w 9 6) (fld w 3 3), nz w 13 10, nz w 5 4, false⟩
  | 41 => some ⟨.vqnt h (fld w 21 18) (fld w 17 14) (fld w 9 6), nz w 13 10 || nz w 3 3, nz w 5 4, false⟩
  | 42 => some ⟨.vdqt h (fld w 21 18) (fld w 17 14) (fld w 9 6), nz w 13 10 || nz w 3 3, nz w 5 4, false⟩
  | 44 => some ⟨.vpermb h (fld w 21 18) (fld w 17 14) (fld w 13 10), nz w 9 3, false, false⟩
  | 45 => some ⟨.vshuf h (fld w 21 18) (fld w 17 14) (fld w 13 10), nz w 9 3, false, false⟩
  | 46 => some ⟨.vbcast h (fld w 21 18) (fld w 17 14) (fld w 9 4), nz w 13 10 || nz w 3 3, false, false⟩
  | 47 => some ⟨.vmov h (fld w 21 18) (fld w 17 14), nz w 13 3, false, false⟩
  | 48 => 
    (match bits w 3 3 with
    | 0 => some ⟨.vrsum h (fld w 21 18) (fld w 17 14), nz w 13 4, false, false⟩
    | _ => some ⟨.vrsumQ h (fld w 19 18) (fld w 17 14), nz w 21 20 || nz w 13 4, false, false⟩)
  | 49 => 
    (match bits w 3 3 with
    | 0 => some ⟨.vrmax h (fld w 21 18) (fld w 17 14), nz w 13 4, false, false⟩
    | _ => some ⟨.vrmaxQ h (fld w 19 18) (fld w 17 14), nz w 21 20 || nz w 13 4, false, false⟩)
  | 50 => 
    (match bits w 3 3 with
    | 0 => some ⟨.vrmin h (fld w 21 18) (fld w 17 14), nz w 13 4, false, false⟩
    | _ => some ⟨.vrminQ h (fld w 19 18) (fld w 17 14), nz w 21 20 || nz w 13 4, false, false⟩)
  | 51 => some ⟨.vscan h (fld w 21 18) (fld w 17 14) (fld w 3 3), nz w 13 4, false, false⟩
  | 52 => some ⟨.vgath h (fld w 21 18) (fld w 17 14) (fld w 13 10), nz w 9 3, false, false⟩
  | 53 => some ⟨.vscat h (fld w 21 18) (fld w 17 14) (fld w 13 10), nz w 9 3, false, false⟩
  | 54 => some ⟨.vrng h (fld w 21 18) (fld w 9 6), nz w 17 10 || nz w 3 3, nz w 5 4, false⟩
  | 55 => some ⟨.vdrop h (fld w 21 18) (fld w 9 7), nz w 17 10 || nz w 3 3, nz w 6 4, false⟩
  | 56 => some ⟨.vnorm h (fld w 21 18) (fld w 17 14) (fld w 13 10) (fld w 9 5), nz w 3 3, nz w 4 4, false⟩
  | 57 => some ⟨.vsmax h (fld w 21 18) (fld w 17 14) (fld w 9 4), nz w 13 10 || nz w 3 3, false, false⟩
  | _ => none

/-- Class 0xA (R94, R240). -/
def decodeMf (h : Hdr) (w : Nat) : Option Raw :=
  match bits w 27 23 with
  | 0 => some ⟨.mcfg h (fld w 22 19) (fld w 17 16), nz w 15 3, false, nz w 18 18⟩
  | 1 => some ⟨.mwl h (fld w 22 19), nz w 18 3, false, false⟩
  | 2 => some ⟨.mws h, nz w 22 3, false, false⟩
  | 3 => some ⟨.mms h (fld w 22 19) (fld w 18 16) (fld w 14 12) (fld w 11 6), nz w 5 3, false, nz w 15 15⟩
  | 4 => some ⟨.mmsz h (fld w 22 19) (fld w 18 16) (fld w 14 12) (fld w 11 6), nz w 5 3, false, nz w 15 15⟩
  | 5 => 
    (match bits w 5 3 with
    | 0 => some ⟨.msclC h (fld w 22 19) (fld w 18 16), nz w 15 6, false, false⟩
    | 1 => some ⟨.msclR h (fld w 22 19) (fld w 18 16), nz w 15 6, false, false⟩
    | 2 => some ⟨.msclK h (fld w 22 19), nz w 18 6, false, false⟩
    | _ => some ⟨.msclC h (fld w 22 19) (fld w 18 16), nz w 15 6, false, true⟩)
  | 6 => some ⟨.mza h (fld w 18 16) (fld w 5 3), nz w 22 19 || nz w 15 6, false, false⟩
  | 7 => some ⟨.mrd h (fld w 22 19) (fld w 18 16) (fld w 5 5) (fld w 4 3), nz w 15 6, false, false⟩
  | 8 => some ⟨.mwr h (fld w 22 19) (fld w 18 16) (fld w 3 3), nz w 15 6, false, nz w 5 4⟩
  | 9 => some ⟨.mdrn h, nz w 22 3, false, false⟩
  | 10 => some ⟨.mstat h (fld w 4 3), nz w 22 5, false, false⟩
  | _ => none

/-- Class 0xC (R95, R270). XARM has two rows: its count comes from RA or from a LIMM. -/
def decodeXf (h : Hdr) (w : Nat) : Option Raw :=
  match bits w 27 22 with
  | 0 => some ⟨.xcpy h (fld w 21 18) (fld w 17 14), nz w 13 3, false, false⟩
  | 1 => some ⟨.xtrn h (fld w 21 18) (fld w 17 14), nz w 13 3, false, false⟩
  | 2 => some ⟨.xfill h (fld w 21 18) (fld w 13 8), nz w 17 14 || nz w 7 3, false, false⟩
  | 16 => some ⟨.xput h (fld w 17 14) (fld w 13 9) (fld w 7 6) (fld w 4 3), nz w 21 18, nz w 8 8, nz w 5 5⟩
  | 17 => some ⟨.xget h (fld w 21 18) (fld w 13 9) (fld w 7 6) (fld w 4 3), nz w 17 14, nz w 8 8, nz w 5 5⟩
  | 18 => some ⟨.xpf h (fld w 13 10) (fld w 7 6), nz w 21 14 || nz w 5 3, nz w 9 8, false⟩
  | 19 => some ⟨.xld h (fld w 21 18) (fld w 13 9) (fld w 7 6) (fld w 4 3), nz w 17 14, nz w 8 8, nz w 5 5⟩
  | 20 => some ⟨.xst h (fld w 17 14) (fld w 13 10) (fld w 7 6) (fld w 4 3), nz w 21 18, nz w 9 8, nz w 5 5⟩
  | 21 => some ⟨.xldg h (fld w 21 18) (fld w 13 9) (fld w 7 6) (fld w 4 3), nz w 17 14, nz w 8 8, nz w 5 5⟩
  | 22 => some ⟨.xbc h (fld w 17 14) (fld w 13 9) (fld w 7 6) (fld w 4 3), nz w 21 18, nz w 8 8, nz w 5 5⟩
  | 23 => some ⟨.xatmGrp h (fld w 21 18) (fld w 17 14) (fld w 13 9) (fld w 7 6) (fld w 5 3), false, nz w 8 8, false⟩
  | 24 => some ⟨.xatmGang h (fld w 21 18) (fld w 17 14) (fld w 13 9) (fld w 7 6) (fld w 5 3), false, nz w 8 8, false⟩
  | 25 => some ⟨.xatmDev h (fld w 21 18) (fld w 17 14) (fld w 13 9) (fld w 7 6) (fld w 5 3), false, nz w 8 8, false⟩
  | 26 => some ⟨.xatmSys h (fld w 21 18) (fld w 17 14) (fld w 13 9) (fld w 7 6) (fld w 5 3), false, nz w 8 8, false⟩
  | 27 => some ⟨.xgth h (fld w 21 18) (fld w 17 14) (fld w 13 9) (fld w 7 6), nz w 5 3, nz w 8 8, false⟩
  | 28 => some ⟨.xenc h (fld w 17 14) (fld w 13 9) (fld w 7 6) (fld w 3 3), nz w 21 18, nz w 8 8, nz w 5 4⟩
  | 29 => some ⟨.xdec h (fld w 21 18) (fld w 13 9) (fld w 7 6), nz w 17 14 || nz w 5 3, nz w 8 8, false⟩
  | 30 => some ⟨.xovl h (fld w 13 9) (fld w 7 6), nz w 21 14 || nz w 5 3, nz w 8 8, false⟩
  | 31 => some ⟨.xsig h (fld w 13 8) (fld w 7 6) (fld w 3 3), nz w 21 14, false, nz w 5 4⟩
  | 32 => some ⟨.xlaunch h (fld w 17 14) (fld w 13 9) (fld w 7 6), nz w 21 18 || nz w 5 3, nz w 8 8, false⟩
  | 33 => if h.limm.isNone then some ⟨.xarm h (fld w 20 18) (fld w 13 8), nz w 21 21 || nz w 17 14 || nz w 7 3, false, false⟩
    else some ⟨.xarmImm h (fld w 20 18), nz w 21 21 || nz w 17 3, false, false⟩
  | 34 => 
    (match bits w 5 3 with
    | 0 => some ⟨.xwait h (fld w 13 8) (fld w 7 6), nz w 21 14, false, false⟩
    | 1 => some ⟨.xwaitL h (fld w 20 18), nz w 21 21 || nz w 17 6, false, false⟩
    | _ => some ⟨.xwait h (fld w 13 8) (fld w 7 6), nz w 21 14, false, true⟩)
  | 35 => some ⟨.xfence h (fld w 7 6), nz w 21 8 || nz w 5 3, false, false⟩
  | 36 => some ⟨.xrdev h (fld w 17 14) (fld w 13 9) (fld w 7 6) (fld w 4 3), nz w 21 18, nz w 8 8, nz w 5 5⟩
  | _ => none

/-- The allocated cell of a main word, with the guard placed in the header (R69); none for the words
that R66 excludes (0xFFFF_FFFF is of class 0xF). -/
def decodeMain (h0 : Hdr) (w : Nat) : Option Raw :=
  let h : Hdr := { h0 with g := fld w 2 0 }
  if w = 0 then none
  else match bits w 31 28 with
  | 0x0 => decodeSr0 h w
  | 0x1 => decodeSr1 h w
  | 0x2 => decodeSi h w
  | 0x3 => decodeSm h w
  | 0x4 => decodeBr h w
  | 0x5 => decodeSys h w
  | 0x8 => decodeVf h w
  | 0xA => decodeMf h w
  | 0xC => decodeXf h w
  | _ => none

/-- The TOK word's fields (R77). -/
def decodeTok (w : Nat) : Tok := { wa := fld w 27 19, wb := fld w 18 10, wc := fld w 9 1 }

/-- The prefix words of an instruction, each once at most, and its main word (R62). -/
structure Framed where
  tok : Option Nat
  limm : Option Nat
  main : Nat
deriving DecidableEq, Repr

/-- How many words the front end reads (R63): it reads on only while the words so far are TOK, LIMM
or TOK LIMM. -/
def wordsNeeded : List Nat → Nat
  | w0 :: w1 :: _ =>
    if bits w0 31 28 = 6 then (if bits w1 31 28 = 7 then 3 else 2)
    else if bits w0 31 28 = 7 then 2 else 1
  | [w0] => if bits w0 31 28 = 6 ∨ bits w0 31 28 = 7 then 2 else 1
  | [] => 1

/-- Prefix order (R62): the word that breaks it is ETVAL, CAUSE.SUB is 2. -/
def frame (w0 w1 w2 : Nat) : Except Reject Framed :=
  if bits w0 31 28 = 6 then
    if bits w1 31 28 = 7 then
      if bits w2 31 28 = 6 ∨ bits w2 31 28 = 7 then .error ⟨2, w2⟩
      else .ok ⟨some w0, some w1, w2⟩
    else if bits w1 31 28 = 6 then .error ⟨2, w1⟩
    else .ok ⟨some w0, none, w1⟩
  else if bits w0 31 28 = 7 then
    if bits w1 31 28 = 6 ∨ bits w1 31 28 = 7 then .error ⟨2, w1⟩
    else .ok ⟨none, some w0, w1⟩
  else .ok ⟨none, none, w0⟩

/-- The field W of a main word (R71): of SR in [22:21], of SM and SC in [23:22]. -/
def wordWidth (main : Nat) : Nat :=
  match bits main 31 28 with
  | 0x0 | 0x1 => bits main 22 21
  | 0x3 | 0x5 => bits main 23 22
  | _ => 0

/-- A register of the group that a width code names is misaligned (R15, R72), also where the cell does not permit the
code; none in BILV and BDLV, where W is a mode. In the CSR cells W applies to RD and to the CSR index (R72; DEDUCED for a
code the cell does not permit, log 24). -/
def offWidth (w : Nat) : Instr → Bool
  | .add _ _ d a b | .sub _ _ d a b | .shl _ d a b | .shr _ d a b | .sra _ d a b | .rot _ d a b | .min _ d a b
  | .max _ d a b | .minu _ d a b | .maxu _ d a b | .mul _ d a b | .mulh _ d a b | .mulhu _ d a b | .div _ d a b
  | .divu _ d a b | .rem _ d a b | .remu _ d a b | .bfx _ d a b | .bfi _ d a b | .fadd _ d a b | .fmul _ d a b
  | .fma _ d a b | .fmin _ d a b | .fmax _ d a b => offGroup w d.toNat || offGroup w a.toNat || offGroup w b.toNat
  | .clz _ d a | .ctz _ d a | .popc _ d a | .brev _ d a | .fcvtFI _ d a | .fcvtFU _ d a | .fcvtIF _ d a
  | .fcvtUF _ d a => offGroup w d.toNat || offGroup w a.toNat
  | .cmpEq _ _ _ a b | .cmpNe _ _ _ a b | .cmpLt _ _ _ a b | .cmpLe _ _ _ a b | .cmpLtu _ _ _ a b
  | .cmpLeu _ _ _ a b | .fcmpEq _ _ a b | .fcmpLt _ _ a b | .fcmpLe _ _ a b | .fcmpUn _ _ a b =>
    offGroup w a.toNat || offGroup w b.toNat
  | .ldB _ d _ _ | .ldH _ d _ _ | .stB _ d _ _ | .stH _ d _ _ | .feset _ d _ _ | .feclr _ d _ _ => offGroup w d.toNat
  | .csrr _ _ d c | .csrw _ _ d c | .csrs _ _ d c | .csrc _ _ d c => offGroup w d.toNat || offGroup w c.toNat
  | _ => false

/-- Steps 2 to 4 of R67 on framed words. A required LIMM that is missing (SUB 4, XPF) is in no word:
ETVAL takes the main word (DESIGN CHOICE, log 81). Of SUB 3 and SUB 5 the lower is reported: a width code that the cell
does not permit names its group all the same (R15, R67, R72). -/
def decodeFramed (f : Framed) : Except Reject Instr :=
  let h : Hdr := { g := 0, tok := f.tok.map decodeTok,
                   limm := f.limm.map (fun w => fld w 27 0) }
  match decodeMain h f.main with
  | none => .error ⟨0, f.main⟩
  | some r =>
    if !limmOk r.instr then .error ⟨4, f.limm.getD f.main⟩
    else if (f.tok.getD 0) % 2 ≠ 0 ∨ !tokOk (f.tok.map decodeTok) then .error ⟨1, f.tok.getD 0⟩
    else if r.r1 || unusedSet r.instr then .error ⟨1, f.main⟩
    else if r.r3 || (if r.r5 then offWidth (wordWidth f.main) r.instr else misaligned r.instr) then .error ⟨3, f.main⟩
    else if r.r5 || badCode r.instr then .error ⟨5, f.main⟩
    else .ok r.instr

/-- The decoder: steps 2 to 4 of R67 on the words at the program counter. Words past the ones the
instruction needs are not looked at. -/
def decodeWords (w0 w1 w2 : Nat) : Except Reject Instr :=
  match frame w0 w1 w2 with
  | .error e => .error e
  | .ok f => decodeFramed f

/-- A little-endian word of four bytes (R4). -/
def wordOfBytes (b0 b1 b2 b3 : Byte) : Nat :=
  b0.toNat + 2 ^ 8 * b1.toNat + 2 ^ 16 * b2.toNat + 2 ^ 24 * b3.toNat

/-- The decoder on bytes: three words from the first twelve, missing bytes read as zero. -/
def decodeBytes (bs : List Byte) : Except Reject Instr :=
  let b := fun i => bs.getD i 0
  decodeWords (wordOfBytes (b 0) (b 1) (b 2) (b 3)) (wordOfBytes (b 4) (b 5) (b 6) (b 7))
    (wordOfBytes (b 8) (b 9) (b 10) (b 11))

/-- The decoder on a word of the opcode table: bit 0 is the least significant bit of the first word,
and the words after the given bits are zero. -/
def decodeTableWord (nbits w : Nat) : Option Instr :=
  let v := w % 2 ^ nbits
  match decodeWords (v % 2 ^ 32) (v / 2 ^ 32 % 2 ^ 32) (v / 2 ^ 64 % 2 ^ 32) with
  | .ok i => some i
  | .error _ => none

/-! ## The encoder -/

/-- The main word of an instruction (R73, R82); 0, which R66 excludes, for a step of an agent. -/
def encodeMain : Instr → Nat
  | .add h w d a b => 0x0 + w.toNat * 0x200000 + d.toNat * 0x8000 + a.toNat * 0x200 + b.toNat * 0x8 + h.g.toNat
  | .sub h w d a b => 0x800000 + w.toNat * 0x200000 + d.toNat * 0x8000 + a.toNat * 0x200 + b.toNat * 0x8 + h.g.toNat
  | .and h w d a b => 0x1000000 + w.toNat * 0x200000 + d.toNat * 0x8000 + a.toNat * 0x200 + b.toNat * 0x8 + h.g.toNat
  | .or h w d a b => 0x1800000 + w.toNat * 0x200000 + d.toNat * 0x8000 + a.toNat * 0x200 + b.toNat * 0x8 + h.g.toNat
  | .xor h w d a b => 0x2000000 + w.toNat * 0x200000 + d.toNat * 0x8000 + a.toNat * 0x200 + b.toNat * 0x8 + h.g.toNat
  | .andn h w d a b => 0x2800000 + w.toNat * 0x200000 + d.toNat * 0x8000 + a.toNat * 0x200 + b.toNat * 0x8 + h.g.toNat
  | .shl h d a b => 0x3000000 + d.toNat * 0x8000 + a.toNat * 0x200 + b.toNat * 0x8 + h.g.toNat
  | .shr h d a b => 0x3800000 + d.toNat * 0x8000 + a.toNat * 0x200 + b.toNat * 0x8 + h.g.toNat
  | .sra h d a b => 0x4000000 + d.toNat * 0x8000 + a.toNat * 0x200 + b.toNat * 0x8 + h.g.toNat
  | .rot h d a b => 0x4800000 + d.toNat * 0x8000 + a.toNat * 0x200 + b.toNat * 0x8 + h.g.toNat
  | .min h d a b => 0x5000000 + d.toNat * 0x8000 + a.toNat * 0x200 + b.toNat * 0x8 + h.g.toNat
  | .max h d a b => 0x5800000 + d.toNat * 0x8000 + a.toNat * 0x200 + b.toNat * 0x8 + h.g.toNat
  | .minu h d a b => 0x6000000 + d.toNat * 0x8000 + a.toNat * 0x200 + b.toNat * 0x8 + h.g.toNat
  | .maxu h d a b => 0x6800000 + d.toNat * 0x8000 + a.toNat * 0x200 + b.toNat * 0x8 + h.g.toNat
  | .cmpEq h w p a b => 0x8000000 + w.toNat * 0x200000 + p.toNat * 0x8000 + a.toNat * 0x200 + b.toNat * 0x8 + h.g.toNat
  | .cmpNe h w p a b => 0x8800000 + w.toNat * 0x200000 + p.toNat * 0x8000 + a.toNat * 0x200 + b.toNat * 0x8 + h.g.toNat
  | .cmpLt h w p a b => 0x9000000 + w.toNat * 0x200000 + p.toNat * 0x8000 + a.toNat * 0x200 + b.toNat * 0x8 + h.g.toNat
  | .cmpLe h w p a b => 0x9800000 + w.toNat * 0x200000 + p.toNat * 0x8000 + a.toNat * 0x200 + b.toNat * 0x8 + h.g.toNat
  | .cmpLtu h w p a b => 0xa000000 + w.toNat * 0x200000 + p.toNat * 0x8000 + a.toNat * 0x200 + b.toNat * 0x8 + h.g.toNat
  | .cmpLeu h w p a b => 0xa800000 + w.toNat * 0x200000 + p.toNat * 0x8000 + a.toNat * 0x200 + b.toNat * 0x8 + h.g.toNat
  | .sel h n w d a b => 0xc000000 + n.toNat * 0x800000 + w.toNat * 0x200000 + d.toNat * 0x8000 + a.toNat * 0x200 + b.toNat * 0x8 + h.g.toNat
  | .mul h d a b => 0x10000000 + d.toNat * 0x8000 + a.toNat * 0x200 + b.toNat * 0x8 + h.g.toNat
  | .mulh h d a b => 0x10800000 + d.toNat * 0x8000 + a.toNat * 0x200 + b.toNat * 0x8 + h.g.toNat
  | .mulhu h d a b => 0x11000000 + d.toNat * 0x8000 + a.toNat * 0x200 + b.toNat * 0x8 + h.g.toNat
  | .div h d a b => 0x11800000 + d.toNat * 0x8000 + a.toNat * 0x200 + b.toNat * 0x8 + h.g.toNat
  | .divu h d a b => 0x12000000 + d.toNat * 0x8000 + a.toNat * 0x200 + b.toNat * 0x8 + h.g.toNat
  | .rem h d a b => 0x12800000 + d.toNat * 0x8000 + a.toNat * 0x200 + b.toNat * 0x8 + h.g.toNat
  | .remu h d a b => 0x13000000 + d.toNat * 0x8000 + a.toNat * 0x200 + b.toNat * 0x8 + h.g.toNat
  | .clz h d a => 0x14000000 + d.toNat * 0x8000 + a.toNat * 0x200 + h.g.toNat
  | .ctz h d a => 0x14800000 + d.toNat * 0x8000 + a.toNat * 0x200 + h.g.toNat
  | .popc h d a => 0x15000000 + d.toNat * 0x8000 + a.toNat * 0x200 + h.g.toNat
  | .brev h d a => 0x15800000 + d.toNat * 0x8000 + a.toNat * 0x200 + h.g.toNat
  | .bilv2 h d a b => 0x16000000 + d.toNat * 0x8000 + a.toNat * 0x200 + b.toNat * 0x8 + h.g.toNat
  | .bilv3 h d a b => 0x16200000 + d.toNat * 0x8000 + a.toNat * 0x200 + b.toNat * 0x8 + h.g.toNat
  | .bdlv2 h d a b => 0x16800000 + d.toNat * 0x8000 + a.toNat * 0x200 + b.toNat * 0x8 + h.g.toNat
  | .bdlv3 h d a b => 0x16a00000 + d.toNat * 0x8000 + a.toNat * 0x200 + b.toNat * 0x8 + h.g.toNat
  | .bfx h d a b => 0x17000000 + d.toNat * 0x8000 + a.toNat * 0x200 + b.toNat * 0x8 + h.g.toNat
  | .bfi h d a b => 0x17800000 + d.toNat * 0x8000 + a.toNat * 0x200 + b.toNat * 0x8 + h.g.toNat
  | .fadd h d a b => 0x18000000 + d.toNat * 0x8000 + a.toNat * 0x200 + b.toNat * 0x8 + h.g.toNat
  | .fmul h d a b => 0x18800000 + d.toNat * 0x8000 + a.toNat * 0x200 + b.toNat * 0x8 + h.g.toNat
  | .fma h d a b => 0x19000000 + d.toNat * 0x8000 + a.toNat * 0x200 + b.toNat * 0x8 + h.g.toNat
  | .fmin h d a b => 0x19800000 + d.toNat * 0x8000 + a.toNat * 0x200 + b.toNat * 0x8 + h.g.toNat
  | .fmax h d a b => 0x1a000000 + d.toNat * 0x8000 + a.toNat * 0x200 + b.toNat * 0x8 + h.g.toNat
  | .fcvtFI h d a => 0x1a800000 + d.toNat * 0x8000 + a.toNat * 0x200 + h.g.toNat
  | .fcvtFU h d a => 0x1a800008 + d.toNat * 0x8000 + a.toNat * 0x200 + h.g.toNat
  | .fcvtIF h d a => 0x1a800010 + d.toNat * 0x8000 + a.toNat * 0x200 + h.g.toNat
  | .fcvtUF h d a => 0x1a800018 + d.toNat * 0x8000 + a.toNat * 0x200 + h.g.toNat
  | .fcmpEq h p a b => 0x1b000000 + p.toNat * 0x8000 + a.toNat * 0x200 + b.toNat * 0x8 + h.g.toNat
  | .fcmpLt h p a b => 0x1b800000 + p.toNat * 0x8000 + a.toNat * 0x200 + b.toNat * 0x8 + h.g.toNat
  | .fcmpLe h p a b => 0x1c000000 + p.toNat * 0x8000 + a.toNat * 0x200 + b.toNat * 0x8 + h.g.toNat
  | .fcmpUn h p a b => 0x1c800000 + p.toNat * 0x8000 + a.toNat * 0x200 + b.toNat * 0x8 + h.g.toNat
  | .addi h d a i => 0x20000000 + d.toNat * 0x40000 + a.toNat * 0x1000 + i.toNat * 0x8 + h.g.toNat
  | .andi h d a i => 0x21000000 + d.toNat * 0x40000 + a.toNat * 0x1000 + i.toNat * 0x8 + h.g.toNat
  | .ori h d a i => 0x22000000 + d.toNat * 0x40000 + a.toNat * 0x1000 + i.toNat * 0x8 + h.g.toNat
  | .xori h d a i => 0x23000000 + d.toNat * 0x40000 + a.toNat * 0x1000 + i.toNat * 0x8 + h.g.toNat
  | .shli h d a s => 0x24000000 + d.toNat * 0x40000 + a.toNat * 0x1000 + s.toNat * 0x8 + h.g.toNat
  | .shri h d a s => 0x25000000 + d.toNat * 0x40000 + a.toNat * 0x1000 + s.toNat * 0x8 + h.g.toNat
  | .srai h d a s => 0x26000000 + d.toNat * 0x40000 + a.toNat * 0x1000 + s.toNat * 0x8 + h.g.toNat
  | .movi h d i => 0x27000000 + d.toNat * 0x40000 + i.toNat * 0x8 + h.g.toNat
  | .cmpiEq h p a i => 0x28000000 + p.toNat * 0x40000 + a.toNat * 0x1000 + i.toNat * 0x8 + h.g.toNat
  | .cmpiNe h p a i => 0x29000000 + p.toNat * 0x40000 + a.toNat * 0x1000 + i.toNat * 0x8 + h.g.toNat
  | .cmpiLt h p a i => 0x2a000000 + p.toNat * 0x40000 + a.toNat * 0x1000 + i.toNat * 0x8 + h.g.toNat
  | .cmpiLe h p a i => 0x2b000000 + p.toNat * 0x40000 + a.toNat * 0x1000 + i.toNat * 0x8 + h.g.toNat
  | .cmpiLtu h p a i => 0x2c000000 + p.toNat * 0x40000 + a.toNat * 0x1000 + i.toNat * 0x8 + h.g.toNat
  | .cmpiLeu h p a i => 0x2d000000 + p.toNat * 0x40000 + a.toNat * 0x1000 + i.toNat * 0x8 + h.g.toNat
  | .ldB h d a o => 0x30000000 + d.toNat * 0x10000 + a.toNat * 0x400 + o.toNat * 0x8 + h.g.toNat
  | .ldH h d a o => 0x31000000 + d.toNat * 0x10000 + a.toNat * 0x400 + o.toNat * 0x8 + h.g.toNat
  | .ld h w d a o => 0x32000000 + w.toNat * 0x400000 + d.toNat * 0x10000 + a.toNat * 0x400 + o.toNat * 0x8 + h.g.toNat
  | .ldW h w d a o => 0x33000000 + w.toNat * 0x400000 + d.toNat * 0x10000 + a.toNat * 0x400 + o.toNat * 0x8 + h.g.toNat
  | .ldC h w d a o => 0x34000000 + w.toNat * 0x400000 + d.toNat * 0x10000 + a.toNat * 0x400 + o.toNat * 0x8 + h.g.toNat
  | .stB h d a o => 0x35000000 + d.toNat * 0x10000 + a.toNat * 0x400 + o.toNat * 0x8 + h.g.toNat
  | .stH h d a o => 0x36000000 + d.toNat * 0x10000 + a.toNat * 0x400 + o.toNat * 0x8 + h.g.toNat
  | .st h w d a o => 0x37000000 + w.toNat * 0x400000 + d.toNat * 0x10000 + a.toNat * 0x400 + o.toNat * 0x8 + h.g.toNat
  | .stE h w d a o => 0x38000000 + w.toNat * 0x400000 + d.toNat * 0x10000 + a.toNat * 0x400 + o.toNat * 0x8 + h.g.toNat
  | .ldp h w d a o => 0x39000000 + w.toNat * 0x400000 + d.toNat * 0x10000 + a.toNat * 0x400 + o.toNat * 0x8 + h.g.toNat
  | .ldh h hh a o => 0x3a000000 + hh.toNat * 0x10000 + a.toNat * 0x400 + o.toNat * 0x8 + h.g.toNat
  | .sth h hh a o => 0x3b000000 + hh.toNat * 0x10000 + a.toNat * 0x400 + o.toNat * 0x8 + h.g.toNat
  | .feq h p a o => 0x3c000000 + p.toNat * 0x10000 + a.toNat * 0x400 + o.toNat * 0x8 + h.g.toNat
  | .feset h d a o => 0x3d000000 + d.toNat * 0x10000 + a.toNat * 0x400 + o.toNat * 0x8 + h.g.toNat
  | .feclr h d a o => 0x3e000000 + d.toNat * 0x10000 + a.toNat * 0x400 + o.toNat * 0x8 + h.g.toNat
  | .br h o => 0x40000000 + o.toNat * 0x8 + h.g.toNat
  | .brl h o => 0x44000000 + o.toNat * 0x8 + h.g.toNat
  | .loop h a e => 0x48000000 + a.toNat * 0x40000 + e.toNat * 0x8 + h.g.toNat
  | .loopi h c e => 0x49000000 + c.toNat * 0x4000 + e.toNat * 0x8 + h.g.toNat
  | .jr h a o => 0x4c000000 + a.toNat * 0x40000 + o.toNat * 0x8 + h.g.toNat
  | .jrl h a o => 0x4d000000 + a.toNat * 0x40000 + o.toNat * 0x8 + h.g.toNat
  | .csrr h w d c => 0x50000000 + w.toNat * 0x400000 + d.toNat * 0x10000 + c.toNat * 0x10 + h.g.toNat
  | .csrw h w d c => 0x51000000 + w.toNat * 0x400000 + d.toNat * 0x10000 + c.toNat * 0x10 + h.g.toNat
  | .csrs h w d c => 0x52000000 + w.toNat * 0x400000 + d.toNat * 0x10000 + c.toNat * 0x10 + h.g.toNat
  | .csrc h w d c => 0x53000000 + w.toNat * 0x400000 + d.toNat * 0x10000 + c.toNat * 0x10 + h.g.toNat
  | .pand h d a b => 0x54000000 + d.toNat * 0x80000 + a.toNat * 0x10000 + b.toNat * 0x2000 + h.g.toNat
  | .por h d a b => 0x54400000 + d.toNat * 0x80000 + a.toNat * 0x10000 + b.toNat * 0x2000 + h.g.toNat
  | .pxor h d a b => 0x54800000 + d.toNat * 0x80000 + a.toNat * 0x10000 + b.toNat * 0x2000 + h.g.toNat
  | .pnot h d a => 0x54c00000 + d.toNat * 0x80000 + a.toNat * 0x10000 + h.g.toNat
  | .pmov h d a => 0x55000000 + d.toNat * 0x80000 + a.toNat * 0x10000 + h.g.toNat
  | .nop h => 0x58000000 + h.g.toNat
  | .sync h => 0x58100000 + h.g.toNat
  | .iter h => 0x58200000 + h.g.toNat
  | .eret h => 0x58300000 + h.g.toNat
  | .svc h c => 0x58400000 + c.toNat * 0x8 + h.g.toNat
  | .bkpt h c => 0x58500000 + c.toNat * 0x8 + h.g.toNat
  | .qpop h d n => 0x58600000 + d.toNat * 0x4000 + n.toNat * 0x8 + h.g.toNat
  | .qstat h d n => 0x58700000 + d.toNat * 0x4000 + n.toNat * 0x8 + h.g.toNat
  | .rng h d a => 0x58800000 + d.toNat * 0x4000 + a.toNat * 0x200 + h.g.toNat
  | .lendM h n => 0x58900000 + n.toNat * 0x8 + h.g.toNat
  | .lendV h n => 0x58a00000 + n.toNat * 0x8 + h.g.toNat
  | .vadd h d a b s => 0x80000000 + d.toNat * 0x40000 + a.toNat * 0x4000 + b.toNat * 0x400 + s.toNat * 0x10 + h.g.toNat
  | .vsub h d a b s => 0x80400000 + d.toNat * 0x40000 + a.toNat * 0x4000 + b.toNat * 0x400 + s.toNat * 0x10 + h.g.toNat
  | .vmul h d a b s => 0x80800000 + d.toNat * 0x40000 + a.toNat * 0x4000 + b.toNat * 0x400 + s.toNat * 0x10 + h.g.toNat
  | .vfma h d a b s => 0x80c00000 + d.toNat * 0x40000 + a.toNat * 0x4000 + b.toNat * 0x400 + s.toNat * 0x10 + h.g.toNat
  | .vmin h d a b s => 0x81000000 + d.toNat * 0x40000 + a.toNat * 0x4000 + b.toNat * 0x400 + s.toNat * 0x10 + h.g.toNat
  | .vmax h d a b s => 0x81400000 + d.toNat * 0x40000 + a.toNat * 0x4000 + b.toNat * 0x400 + s.toNat * 0x10 + h.g.toNat
  | .vabs h d a => 0x81800000 + d.toNat * 0x40000 + a.toNat * 0x4000 + h.g.toNat
  | .vneg h d a => 0x81c00000 + d.toNat * 0x40000 + a.toNat * 0x4000 + h.g.toNat
  | .vrcp h d a => 0x82000000 + d.toNat * 0x40000 + a.toNat * 0x4000 + h.g.toNat
  | .vrsq h d a => 0x82400000 + d.toNat * 0x40000 + a.toNat * 0x4000 + h.g.toNat
  | .vexp2 h d a => 0x82800000 + d.toNat * 0x40000 + a.toNat * 0x4000 + h.g.toNat
  | .vlog2 h d a => 0x82c00000 + d.toNat * 0x40000 + a.toNat * 0x4000 + h.g.toNat
  | .vsin h d a => 0x83000000 + d.toNat * 0x40000 + a.toNat * 0x4000 + h.g.toNat
  | .vcos h d a => 0x83400000 + d.toNat * 0x40000 + a.toNat * 0x4000 + h.g.toNat
  | .vtanh h d a => 0x83800000 + d.toNat * 0x40000 + a.toNat * 0x4000 + h.g.toNat
  | .vsigm h d a => 0x83c00000 + d.toNat * 0x40000 + a.toNat * 0x4000 + h.g.toNat
  | .viadd h d a b s => 0x84000000 + d.toNat * 0x40000 + a.toNat * 0x4000 + b.toNat * 0x400 + s.toNat * 0x10 + h.g.toNat
  | .visub h d a b s => 0x84400000 + d.toNat * 0x40000 + a.toNat * 0x4000 + b.toNat * 0x400 + s.toNat * 0x10 + h.g.toNat
  | .vimul h d a b s => 0x84800000 + d.toNat * 0x40000 + a.toNat * 0x4000 + b.toNat * 0x400 + s.toNat * 0x10 + h.g.toNat
  | .vand h d a b s => 0x84c00000 + d.toNat * 0x40000 + a.toNat * 0x4000 + b.toNat * 0x400 + s.toNat * 0x10 + h.g.toNat
  | .vor h d a b s => 0x85000000 + d.toNat * 0x40000 + a.toNat * 0x4000 + b.toNat * 0x400 + s.toNat * 0x10 + h.g.toNat
  | .vxor h d a b s => 0x85400000 + d.toNat * 0x40000 + a.toNat * 0x4000 + b.toNat * 0x400 + s.toNat * 0x10 + h.g.toNat
  | .vshl h d a b s => 0x85800000 + d.toNat * 0x40000 + a.toNat * 0x4000 + b.toNat * 0x400 + s.toNat * 0x10 + h.g.toNat
  | .vshr h d a b s => 0x85c00000 + d.toNat * 0x40000 + a.toNat * 0x4000 + b.toNat * 0x400 + s.toNat * 0x10 + h.g.toNat
  | .vsra h d a b s => 0x86000000 + d.toNat * 0x40000 + a.toNat * 0x4000 + b.toNat * 0x400 + s.toNat * 0x10 + h.g.toNat
  | .vclz h d a => 0x86400000 + d.toNat * 0x40000 + a.toNat * 0x4000 + h.g.toNat
  | .vpopc h d a => 0x86800000 + d.toNat * 0x40000 + a.toNat * 0x4000 + h.g.toNat
  | .vbilv h d a b m => 0x86c00000 + d.toNat * 0x40000 + a.toNat * 0x4000 + b.toNat * 0x400 + m.toNat * 0x8 + h.g.toNat
  | .vcmpEq h d a b s => 0x88000000 + d.toNat * 0x40000 + a.toNat * 0x4000 + b.toNat * 0x400 + s.toNat * 0x10 + h.g.toNat
  | .vcmpNe h d a b s => 0x88400000 + d.toNat * 0x40000 + a.toNat * 0x4000 + b.toNat * 0x400 + s.toNat * 0x10 + h.g.toNat
  | .vcmpLt h d a b s => 0x88800000 + d.toNat * 0x40000 + a.toNat * 0x4000 + b.toNat * 0x400 + s.toNat * 0x10 + h.g.toNat
  | .vcmpLe h d a b s => 0x88c00000 + d.toNat * 0x40000 + a.toNat * 0x4000 + b.toNat * 0x400 + s.toNat * 0x10 + h.g.toNat
  | .vmsel h d a k s => 0x89000000 + d.toNat * 0x40000 + a.toNat * 0x4000 + k.toNat * 0x400 + s.toNat * 0x10 + h.g.toNat
  | .vmselM h d a k => 0x89000008 + d.toNat * 0x40000 + a.toNat * 0x4000 + k.toNat * 0x400 + h.g.toNat
  | .vcvt h d a s m => 0x8a000000 + d.toNat * 0x40000 + a.toNat * 0x4000 + s.toNat * 0x40 + m.toNat * 0x8 + h.g.toNat
  | .vqnt h d a s => 0x8a400000 + d.toNat * 0x40000 + a.toNat * 0x4000 + s.toNat * 0x40 + h.g.toNat
  | .vdqt h d a s => 0x8a800000 + d.toNat * 0x40000 + a.toNat * 0x4000 + s.toNat * 0x40 + h.g.toNat
  | .vpermb h d a b => 0x8b000000 + d.toNat * 0x40000 + a.toNat * 0x4000 + b.toNat * 0x400 + h.g.toNat
  | .vshuf h d a b => 0x8b400000 + d.toNat * 0x40000 + a.toNat * 0x4000 + b.toNat * 0x400 + h.g.toNat
  | .vbcast h d a s => 0x8b800000 + d.toNat * 0x40000 + a.toNat * 0x4000 + s.toNat * 0x10 + h.g.toNat
  | .vmov h d a => 0x8bc00000 + d.toNat * 0x40000 + a.toNat * 0x4000 + h.g.toNat
  | .vrsum h d a => 0x8c000000 + d.toNat * 0x40000 + a.toNat * 0x4000 + h.g.toNat
  | .vrsumQ h n a => 0x8c000008 + n.toNat * 0x40000 + a.toNat * 0x4000 + h.g.toNat
  | .vrmax h d a => 0x8c400000 + d.toNat * 0x40000 + a.toNat * 0x4000 + h.g.toNat
  | .vrmaxQ h n a => 0x8c400008 + n.toNat * 0x40000 + a.toNat * 0x4000 + h.g.toNat
  | .vrmin h d a => 0x8c800000 + d.toNat * 0x40000 + a.toNat * 0x4000 + h.g.toNat
  | .vrminQ h n a => 0x8c800008 + n.toNat * 0x40000 + a.toNat * 0x4000 + h.g.toNat
  | .vscan h d a m => 0x8cc00000 + d.toNat * 0x40000 + a.toNat * 0x4000 + m.toNat * 0x8 + h.g.toNat
  | .vgath h d a b => 0x8d000000 + d.toNat * 0x40000 + a.toNat * 0x4000 + b.toNat * 0x400 + h.g.toNat
  | .vscat h d a b => 0x8d400000 + d.toNat * 0x40000 + a.toNat * 0x4000 + b.toNat * 0x400 + h.g.toNat
  | .vrng h d s => 0x8d800000 + d.toNat * 0x40000 + s.toNat * 0x40 + h.g.toNat
  | .vdrop h d s => 0x8dc00000 + d.toNat * 0x40000 + s.toNat * 0x80 + h.g.toNat
  | .vnorm h d a b s => 0x8e000000 + d.toNat * 0x40000 + a.toNat * 0x4000 + b.toNat * 0x400 + s.toNat * 0x20 + h.g.toNat
  | .vsmax h d a s => 0x8e400000 + d.toNat * 0x40000 + a.toNat * 0x4000 + s.toNat * 0x10 + h.g.toNat
  | .mcfg h m k => 0xa0000000 + m.toNat * 0x80000 + k.toNat * 0x10000 + h.g.toNat
  | .mwl h x => 0xa0800000 + x.toNat * 0x80000 + h.g.toNat
  | .mws h => 0xa1000000 + h.g.toNat
  | .mms h x k p s => 0xa1800000 + x.toNat * 0x80000 + k.toNat * 0x10000 + p.toNat * 0x1000 + s.toNat * 0x40 + h.g.toNat
  | .mmsz h x k p s => 0xa2000000 + x.toNat * 0x80000 + k.toNat * 0x10000 + p.toNat * 0x1000 + s.toNat * 0x40 + h.g.toNat
  | .msclC h x k => 0xa2800000 + x.toNat * 0x80000 + k.toNat * 0x10000 + h.g.toNat
  | .msclR h x k => 0xa2800008 + x.toNat * 0x80000 + k.toNat * 0x10000 + h.g.toNat
  | .msclK h x => 0xa2800010 + x.toNat * 0x80000 + h.g.toNat
  | .mza h k n => 0xa3000000 + k.toNat * 0x10000 + n.toNat * 0x8 + h.g.toNat
  | .mrd h x k i m => 0xa3800000 + x.toNat * 0x80000 + k.toNat * 0x10000 + i.toNat * 0x20 + m.toNat * 0x8 + h.g.toNat
  | .mwr h x k i => 0xa4000000 + x.toNat * 0x80000 + k.toNat * 0x10000 + i.toNat * 0x8 + h.g.toNat
  | .mdrn h => 0xa4800000 + h.g.toNat
  | .mstat h n => 0xa5000000 + n.toNat * 0x8 + h.g.toNat
  | .xcpy h d s => 0xc0000000 + d.toNat * 0x40000 + s.toNat * 0x4000 + h.g.toNat
  | .xtrn h d s => 0xc0400000 + d.toNat * 0x40000 + s.toNat * 0x4000 + h.g.toNat
  | .xfill h d a => 0xc0800000 + d.toNat * 0x40000 + a.toNat * 0x100 + h.g.toNat
  | .xput h s a c q => 0xc4000000 + s.toNat * 0x4000 + a.toNat * 0x200 + c.toNat * 0x40 + q.toNat * 0x8 + h.g.toNat
  | .xget h d a c q => 0xc4400000 + d.toNat * 0x40000 + a.toNat * 0x200 + c.toNat * 0x40 + q.toNat * 0x8 + h.g.toNat
  | .xpf h a c => 0xc4800000 + a.toNat * 0x400 + c.toNat * 0x40 + h.g.toNat
  | .xld h d a c q => 0xc4c00000 + d.toNat * 0x40000 + a.toNat * 0x200 + c.toNat * 0x40 + q.toNat * 0x8 + h.g.toNat
  | .xst h s a c q => 0xc5000000 + s.toNat * 0x4000 + a.toNat * 0x400 + c.toNat * 0x40 + q.toNat * 0x8 + h.g.toNat
  | .xldg h d a c m => 0xc5400000 + d.toNat * 0x40000 + a.toNat * 0x200 + c.toNat * 0x40 + m.toNat * 0x8 + h.g.toNat
  | .xbc h s a c q => 0xc5800000 + s.toNat * 0x4000 + a.toNat * 0x200 + c.toNat * 0x40 + q.toNat * 0x8 + h.g.toNat
  | .xatmGrp h o s a c m => 0xc5c00000 + o.toNat * 0x40000 + s.toNat * 0x4000 + a.toNat * 0x200 + c.toNat * 0x40 + m.toNat * 0x8 + h.g.toNat
  | .xatmGang h o s a c m => 0xc6000000 + o.toNat * 0x40000 + s.toNat * 0x4000 + a.toNat * 0x200 + c.toNat * 0x40 + m.toNat * 0x8 + h.g.toNat
  | .xatmDev h o s a c m => 0xc6400000 + o.toNat * 0x40000 + s.toNat * 0x4000 + a.toNat * 0x200 + c.toNat * 0x40 + m.toNat * 0x8 + h.g.toNat
  | .xatmSys h o s a c m => 0xc6800000 + o.toNat * 0x40000 + s.toNat * 0x4000 + a.toNat * 0x200 + c.toNat * 0x40 + m.toNat * 0x8 + h.g.toNat
  | .xgth h d s a c => 0xc6c00000 + d.toNat * 0x40000 + s.toNat * 0x4000 + a.toNat * 0x200 + c.toNat * 0x40 + h.g.toNat
  | .xenc h s a c e => 0xc7000000 + s.toNat * 0x4000 + a.toNat * 0x200 + c.toNat * 0x40 + e.toNat * 0x8 + h.g.toNat
  | .xdec h d a c => 0xc7400000 + d.toNat * 0x40000 + a.toNat * 0x200 + c.toNat * 0x40 + h.g.toNat
  | .xovl h a c => 0xc7800000 + a.toNat * 0x200 + c.toNat * 0x40 + h.g.toNat
  | .xsig h a c m => 0xc7c00000 + a.toNat * 0x100 + c.toNat * 0x40 + m.toNat * 0x8 + h.g.toNat
  | .xlaunch h s a c => 0xc8000000 + s.toNat * 0x4000 + a.toNat * 0x200 + c.toNat * 0x40 + h.g.toNat
  | .xarm h n a => 0xc8400000 + n.toNat * 0x40000 + a.toNat * 0x100 + h.g.toNat
  | .xarmImm h n => 0xc8400000 + n.toNat * 0x40000 + h.g.toNat
  | .xwait h a c => 0xc8800000 + a.toNat * 0x100 + c.toNat * 0x40 + h.g.toNat
  | .xwaitL h n => 0xc8800008 + n.toNat * 0x40000 + h.g.toNat
  | .xfence h c => 0xc8c00000 + c.toNat * 0x40 + h.g.toNat
  | .xrdev h s a c m => 0xc9000000 + s.toNat * 0x4000 + a.toNat * 0x200 + c.toNat * 0x40 + m.toNat * 0x8 + h.g.toNat
  | _ => 0

/-- The TOK word (R77). -/
def encodeTok (t : Tok) : Nat :=
  0x60000000 + t.wa.toNat * 0x80000 + t.wb.toNat * 0x400 + t.wc.toNat * 2

/-- The LIMM word (R62, R75). -/
def encodeLimm (v : BitVec 28) : Nat := 0x70000000 + v.toNat

/-- The words of an instruction in execution order (R4, R62): TOK, LIMM, main. -/
def encode (i : Instr) : List Nat :=
  match i.hdr with
  | none => []
  | some h =>
    (match h.tok with | some t => [encodeTok t] | none => []) ++
    (match h.limm with | some v => [encodeLimm v] | none => []) ++ [encodeMain i]

/-- The decoder on a list of words, missing words read as zero. -/
def decodeList (ws : List Nat) : Except Reject Instr :=
  decodeWords (ws.getD 0 0) (ws.getD 1 0) (ws.getD 2 0)

end Sys2Proof
end

