-- ==== Sys2Proof/Config.lean ====
section
/-! DEFINITION. What the architecture leaves to an implementation: constants without a body, of which
nothing can be proved. -/

namespace Sys2Proof.Config

/-- Which of the FP32 values within the bound of R217 a transcendental cell gives: by the cell's number
(VEXP2 0, VLOG2 1, VSIN 2, VCOS 3, VTANH 4, VSIGM 5) and the FP32 code of its rounded input (log 7). -/
opaque transcendental : Nat → Nat → Nat

/-- The bytes of a word that the device writes with poison for a failed transfer (R286): by the number of
free values taken so far and the byte's address (log 16). -/
opaque poisonByte : Nat → Nat → Byte

/-- Whether the GDDR 7 devices report an uncorrectable error at a read of device memory (R346, R352): by the
number of free values taken so far and the byte address read (log 88). -/
opaque memError : Nat → Nat → Bool

/-- The bytes that a codec engine decodes or keeps in a reference slot while it decodes (R420, R425), by the number of
free values taken so far and the byte's place (log 11). -/
opaque codecByte : Nat → Nat → Byte

/-- The bytes that an encoder makes of the samples that it codes: its reference store and its chunks (R417, R420, R422), by
the number of free values taken so far, the rows of samples and the byte's place (log 11). -/
opaque codedByte : Nat → List (List Nat) → Nat → Byte

/-- The cropped width of a stream (R424), by decoder and picture number (log 11). -/
opaque croppedWidth : Nat → Nat → Nat

/-- A number that the architecture does not fix: the bytes of a picture's bitstream, a chunk's length, whether a
bitstream breaks its standard (R422, R425), an argument of an event that it does not state; by the number of
free values taken so far (log 11, 17). -/
opaque freeNat : Nat → Nat

/-- Whether a picture lies within a level's limits on luma picture size, width and height: by CODEC, LEVEL, WIDTH
and HEIGHT. They are the video standards' own (R415; log 11). -/
opaque levelAdmits : Nat → Nat → Nat → Nat → Bool

/-- Which block rows of a damaged picture are damaged (R425): by decoder, picture number and block row (log
11). -/
opaque rowDamaged : Nat → Nat → Nat → Bool

/-- SHAKE256 of a message, to a number of bytes (R467, R470; log 12). -/
opaque shake256 : List Byte → Nat → List Byte

/-- ML-DSA-65 verification: public key, message, signature (R467; log 12). -/
opaque mldsaVerify : List Byte → List Byte → List Byte → Bool

/-- The secret that the device is fused with (R470; log 12). -/
opaque uniqueSecret : List Byte

/-- The ML-DSA-65 signing key that a seed gives (R470; log 12). -/
opaque mldsaKey : List Byte → List Byte

/-- An ML-DSA-65 signature: signing key, message (R470; log 12). -/
opaque mldsaSign : List Byte → List Byte → List Byte

/-- The certificate chain of the device identity key (R470; log 12). -/
opaque certificates : List Byte

/-- The image of the boot ROM (R470; log 12). -/
opaque bootRom : List Byte

/-- The root digest that the device is fused with (R467; log 12). -/
opaque rootDigest : List Byte

/-- The supervisor code of page 15 in a firmware body, by byte (R390, R467; log 15). -/
opaque firmwarePage : List Byte → Nat → Byte

/-- The default distributor microcode in a firmware body (R467; log 14). -/
opaque defaultMicrocode : List Byte → List Byte

/-- What loading a microcode places in the instruction memory of a hart, from address 0: by the microcode and the hart's
number (R464, R469; log 14). -/
opaque hartImage : List Byte → Nat → List Byte

/-- The bytes that measurement index 4 digests (R470; log 12): by the fused counters and the owner digest. -/
opaque fuseBytes : Nat → Nat → List Byte → List Byte

/-- The bytes that measurement index 5 digests (R470; log 12): by the repaired arrays, the disabled cores and the
disabled sites. -/
opaque repairBytes : List Nat → List Nat → List Nat → List Byte

end Sys2Proof.Config
end

