-- ==== Sys2Proof/Machine/Numbers.lean ====
section
/-! DEFINITION. Number formats, rounding and the counter hash (04 R113 to R142). An exact value is a
signed fraction, an infinity or a NaN; a code becomes a value by `Fmt.value`, a value a code by
`round`. -/

namespace Sys2Proof.Machine

/-- The formats of R113, the unsigned 32-bit integers of FCVT.U.F (R155) and the E8F2 scales (R130). -/
inductive Fmt where
  | fp32 | bf16 | fp16 | e4m3 | e5m2 | e3m2 | e2m3 | e2m1
  | int8 | int4 | lns8 | lns6 | int32 | uint8 | int16 | uint32 | e8f2
deriving DecidableEq, Repr

/-- The 4-bit format code of R113; code 15 names no format. -/
def Fmt.ofCode : Nat → Option Fmt
  | 0 => some .fp32 | 1 => some .bf16 | 2 => some .fp16 | 3 => some .e4m3 | 4 => some .e5m2
  | 5 => some .e3m2 | 6 => some .e2m3 | 7 => some .e2m1 | 8 => some .int8 | 9 => some .int4
  | 10 => some .lns8 | 11 => some .lns6 | 12 => some .int32 | 13 => some .uint8 | 14 => some .int16
  | _ => none

/-- Width of a code in bits (R113, R131). -/
def Fmt.width : Fmt → Nat
  | .fp32 | .int32 | .uint32 => 32
  | .bf16 | .fp16 | .int16 | .e8f2 => 16
  | .e4m3 | .e5m2 | .int8 | .lns8 | .uint8 => 8
  | .e3m2 | .e2m3 | .lns6 => 6
  | .e2m1 | .int4 => 4

/-- Exponent bits, fraction bits and bias of a floating format (R115, R117, R118). -/
def Fmt.float? : Fmt → Option (Nat × Nat × Nat)
  | .fp32 => some (8, 23, 127) | .bf16 => some (8, 7, 127) | .fp16 => some (5, 10, 15)
  | .e4m3 => some (4, 3, 7) | .e5m2 => some (5, 2, 15) | .e3m2 => some (3, 2, 3)
  | .e2m3 => some (2, 3, 1) | .e2m1 => some (2, 1, 1)
  | _ => none

/-- The formats with infinities (R115, R117). -/
def Fmt.hasInf : Fmt → Bool
  | .fp32 | .bf16 | .fp16 | .e5m2 => true
  | _ => false

/-- Least and greatest value of an integer format (R119, R155). -/
def Fmt.int? : Fmt → Option (Int × Int)
  | .int4 => some (-8, 7) | .int8 => some (-128, 127) | .int16 => some (-32768, 32767)
  | .int32 => some (-2147483648, 2147483647) | .uint8 => some (0, 255)
  | .uint32 => some (0, 4294967295)
  | _ => none

/-- The formats that hold integers. -/
def Fmt.isInt (f : Fmt) : Bool := f.int?.isSome

/-- Parts per octave and greatest logarithm of an LNS format (R120). -/
def Fmt.lns? : Fmt → Option (Nat × Nat)
  | .lns8 => some (16, 63) | .lns6 => some (4, 15) | _ => none

/-- The canonical NaN or NaR that a format holds (R116, R117, R120, R130). -/
def Fmt.nan? : Fmt → Option Nat
  | .fp32 => some 0x7FC00000 | .bf16 => some 0x7FC0 | .fp16 => some 0x7E00
  | .e4m3 => some 0x7F | .e5m2 => some 0x7E | .lns8 => some 0xC0 | .lns6 => some 0x30
  | .e8f2 => some 0x3FC
  | _ => none

/-- An exact value: what a code stands for and what Round takes (R125). fin neg n d is
(-1)^neg times n / d, with d not 0; n = 0 is a signed zero. -/
inductive Val where
  | nan
  | inf (neg : Bool)
  | fin (neg : Bool) (n d : Nat)
deriving DecidableEq, Repr

/-- n / d multiplied by 2^k, as a fraction. -/
def mul2 (n d : Nat) : Int → Nat × Nat
  | .ofNat k => (n * 2 ^ k, d)
  | .negSucc k => (n, d * 2 ^ (k + 1))

/-- floor(log2(n / d)) for n and d not 0. -/
def floorLog2 (n d : Nat) : Int :=
  let k : Int := (Nat.log2 n : Int) - (Nat.log2 d : Int)
  let m := mul2 n d (-k)
  if m.2 ≤ m.1 then k else k - 1

/-- A finite value n times 2^k with a sign. -/
def Val.dyadic (neg : Bool) (n : Nat) (k : Int) : Val :=
  let m := mul2 n 1 k
  .fin neg m.1 m.2

/-- An integer as a value; zero is +0. -/
def Val.ofInt (i : Int) : Val := .fin (decide (i < 0)) i.natAbs 1

/-- +0. -/
def Val.zero : Val := .fin false 0 1

/-- +1. -/
def Val.one : Val := .fin false 1 1

/-- The sign of a value; a NaN has none and counts as positive (R116). -/
def Val.sign : Val → Bool
  | .nan => false
  | .inf s => s
  | .fin s _ _ => s

/-- The value is a NaN or a NaR. -/
def Val.isNan : Val → Bool
  | .nan => true
  | _ => false

/-- The value is an infinity. -/
def Val.isInf : Val → Bool
  | .inf _ => true
  | _ => false

/-- The value is a zero of either sign. -/
def Val.isZero : Val → Bool
  | .fin _ 0 _ => true
  | _ => false

/-- A value is negative: below zero, not a negative zero. -/
def Val.isNeg : Val → Bool
  | .inf s => s
  | .fin s n _ => s && n != 0
  | .nan => false

/-- The fraction table of the logarithmic formats (R121). -/
def lfrac : List Nat :=
  [0x8000, 0x85AB, 0x8B96, 0x91C4, 0x9838, 0x9EF5, 0xA5FF, 0xAD58,
   0xB505, 0xBD09, 0xC567, 0xCE25, 0xD745, 0xE0CD, 0xEAC1, 0xF525]

/-- The value of the logarithm L in sixteenths (R121, R123). -/
def lnsValue (neg : Bool) (l16 : Int) : Val :=
  let i := l16 / 16
  let f := (l16 - 16 * i).toNat
  Val.dyadic neg (lfrac.getD f 0) (i - 15)

/-- The logarithm of an LNS code in sixteenths, none for zero and NaR (R120, R123). -/
def lnsLog? (parts wid code : Nat) : Option Int :=
  let l := sx code (wid - 1)
  if l = -(2 ^ (wid - 2) : Int) then none else some (l * ((16 / parts : Nat) : Int))

/-- The value of a code (R115 to R122, R130). Bits above the format's width are ignored. -/
def Fmt.value (f : Fmt) (code : Nat) : Val :=
  match f.float? with
  | some (eb, mb, bias) =>
    let s := decide (bits code (eb + mb) (eb + mb) = 1)
    let e := bits code (eb + mb - 1) mb
    let m := bits code (mb - 1) 0
    if f.hasInf ∧ e = 2 ^ eb - 1 then (if m = 0 then .inf s else .nan)
    else if f = .e4m3 ∧ e = 15 ∧ m = 7 then .nan
    else if e = 0 then Val.dyadic s m (1 - bias - mb)
    else Val.dyadic s (2 ^ mb + m) ((e : Int) - bias - mb)
  | none =>
    match f.lns? with
    | some (parts, _) =>
      let s := decide (bits code (f.width - 1) (f.width - 1) = 1)
      match lnsLog? parts f.width code with
      | none => if s then .nan else Val.zero
      | some l => lnsValue s l
    | none =>
      match f with
      | .e8f2 =>
        if bits code 9 2 = 255 then .nan
        else Val.dyadic false (4 + bits code 1 0) ((bits code 9 2 : Int) - 129)
      | .uint8 => Val.ofInt (bits code 7 0 : Nat)
      | .uint32 => Val.ofInt (bits code 31 0 : Nat)
      | _ => Val.ofInt (sx code f.width)

/-! ## Rounding -/

/-- The rounding modes of R124. SR carries the draw r of R127. -/
inductive Mode where
  | rne | rtz | rup | rdn
  | sr (draw : Nat)
deriving DecidableEq, Repr

/-- The condition bits of R128, NV in bit 0 up to NX in bit 4. -/
def flagNV : Nat := 1
def flagDZ : Nat := 2
def flagOF : Nat := 4
def flagUF : Nat := 8
def flagNX : Nat := 16

/-- A code and the conditions its rounding reports. -/
structure Rounded where
  code : Nat
  flags : Nat
deriving DecidableEq, Repr

/-- Whether the upper of two adjacent members is taken, where the value lies rem / den of the way from
the lower one (R125, R127). loEven says that the lower member's code is even. -/
def Mode.takesUpper (m : Mode) (neg loEven : Bool) (rem den : Nat) : Bool :=
  if rem = 0 then false
  else match m with
    | .rne => decide (den < 2 * rem) || (decide (2 * rem = den) && !loEven)
    | .rtz => false
    | .rup => !neg
    | .rdn => neg
    | .sr r => decide (r < rem * 2 ^ 32 / den)

/-- What overflow gives in a format with a code beyond its largest finite one (R126). -/
def overflowCode (big max : Nat) (m : Mode) (sat neg : Bool) : Nat :=
  if sat then max
  else match m with
    | .rtz => max
    | .rup => if neg then max else big
    | .rdn => if neg then big else max
    | .rne | .sr _ => big

/-- Greatest positive finite code of a floating format. -/
def Fmt.maxCode : Fmt → Nat
  | .fp32 => 0x7F7FFFFF | .bf16 => 0x7F7F | .fp16 => 0x7BFF | .e4m3 => 0x7E | .e5m2 => 0x7B
  | .e3m2 => 0x1F | .e2m3 => 0x1F | .e2m1 => 0x7 | .lns8 => 0x3F | .lns6 => 0x0F | .e8f2 => 0x3FB
  | _ => 0

/-- Overflow of a floating or LNS format (R126): the result and OF with NX. FP6 and FP4 keep their
largest magnitude; E4M3 gives its NaN, LNS NaR and the other formats an infinity. -/
def overflow (f : Fmt) (m : Mode) (sat neg : Bool) : Rounded :=
  let sgn := if neg then 2 ^ (f.width - 1) else 0
  let max := sgn + f.maxCode
  let code :=
    if f.hasInf then overflowCode (sgn + f.maxCode + 1) max m sat neg
    else match f.nan? with
      | some c => overflowCode c max m sat neg
      | none => max
  ⟨code, flagOF + flagNX⟩

/-- Finite rounding to a floating format (R125 step 3): the quantum is that of the value's binade, or
the subnormal one below it. -/
def roundFloat (f : Fmt) (eb mb bias : Nat) (m : Mode) (sat neg : Bool) (n d : Nat) : Rounded :=
  let sgn := if neg then 2 ^ (eb + mb) else 0
  if n = 0 then ⟨sgn, 0⟩
  else
    let lg := floorLog2 n d
    let e : Int := max lg (1 - bias)
    let q := mul2 n d (mb - e)
    let k := q.1 / q.2
    let rem := q.1 % q.2
    let up := m.takesUpper neg (k % 2 == 0) rem q.2
    let k' := if up then k + 1 else k
    let mag := (e + bias - 1).toNat * 2 ^ mb + k'
    if f.maxCode < mag then overflow f m sat neg
    else
      let nx := if rem = 0 then 0 else flagNX
      let uf := if rem ≠ 0 ∧ lg < 1 - (bias : Int) then flagUF else 0
      ⟨sgn + mag, uf + nx⟩

/-- How many entries of the octave's table lie at or below the fraction (R121, R125). -/
def lnsIndex (parts n d : Nat) : Nat :=
  ((List.range parts).filter (fun f => decide (lfrac.getD (f * (16 / parts)) 0 * d ≤ n * 2 ^ 15))).length - 1

/-- The magnitude of a logarithm in parts of an octave, as a fraction. -/
def lnsMag (parts : Nat) (l : Int) : Nat × Nat :=
  let i := l / parts
  let f := (l - parts * i).toNat
  mul2 (lfrac.getD (f * (16 / parts)) 0) 1 (i - 15)

/-- The k-bit code of an integer, two's complement. -/
def codeOfInt (k : Nat) (i : Int) : Nat := (i % (2 ^ k : Int)).toNat

/-- Finite rounding to an LNS format (R125 step 3): zero and the table values from the least
logarithm upwards. -/
def roundLns (f : Fmt) (parts lmax : Nat) (m : Mode) (sat neg : Bool) (n d : Nat) : Rounded :=
  let zeroCode := 2 ^ (f.width - 2)
  let sgn := if neg then 2 ^ (f.width - 1) else 0
  let codeOf := fun l : Int => sgn + codeOfInt (f.width - 1) l
  if n = 0 then ⟨zeroCode, 0⟩
  else
    let low := lnsMag parts (-lmax)
    if n * low.2 < low.1 * d then
      -- between zero and the least magnitude; zero counts as even
      if m.takesUpper neg true (n * low.2) (low.1 * d) then ⟨codeOf (-lmax), flagUF + flagNX⟩
      else ⟨zeroCode, flagUF + flagNX⟩
    else
      let i := floorLog2 n d
      let fr := mul2 n d (-i)
      let l : Int := i * parts + lnsIndex parts fr.1 fr.2
      let lo := lnsMag parts l
      let hi := lnsMag parts (l + 1)
      -- (x - lo) / (hi - lo) over the common denominator d * lo.2 * hi.2
      let x' := n * lo.2 * hi.2
      let lo' := lo.1 * d * hi.2
      let hi' := hi.1 * d * lo.2
      let rem := x' - lo'
      let up := m.takesUpper neg (l % 2 == 0) rem (hi' - lo')
      let l' := if up then l + 1 else l
      if (lmax : Int) < l' then overflow f m sat neg
      else ⟨codeOf l', if rem = 0 then 0 else flagNX⟩

/-- Finite rounding to an integer format (R125, R126): beyond the range the nearer end, with NV. -/
def roundInt (f : Fmt) (lo hi : Int) (m : Mode) (neg : Bool) (n d : Nat) : Rounded :=
  let k := n / d
  let rem := n % d
  let k' := if m.takesUpper neg (k % 2 == 0) rem d then k + 1 else k
  let v : Int := if neg then -(k' : Int) else k'
  if v < lo then ⟨codeOfInt f.width lo, flagNV⟩
  else if hi < v then ⟨codeOfInt f.width hi, flagNV⟩
  else ⟨codeOfInt f.width v, if rem = 0 then 0 else flagNX⟩

/-- Round into E8F2 (R131): positive values of 2^-127 and more, over codes without subnormals. -/
def roundE8F2 (m : Mode) (sat neg : Bool) (n d : Nat) : Rounded :=
  if n = 0 ∨ neg then ⟨0, flagNV⟩
  else
    let e := floorLog2 n d
    if e < -127 then ⟨0, flagUF + flagNX⟩
    else
      let q := mul2 n d (2 - e)
      let k := q.1 / q.2
      let rem := q.1 % q.2
      let k' := if m.takesUpper false (k % 2 == 0) rem q.2 then k + 1 else k
      let code := (e + 127).toNat * 4 + (k' - 4)
      if 0x3FB < code then ⟨if sat then 0x3FB else 0x3FC, flagOF + flagNX⟩
      else ⟨code, if rem = 0 then 0 else flagNX⟩

/-- Round(x, fmt, mode) of R125, with the conditions of R128. -/
def round (f : Fmt) (m : Mode) (sat : Bool) : Val → Rounded
  | .nan =>
    match f.nan? with
    | some c => ⟨c, 0⟩
    | none => ⟨0, flagNV⟩
  | .inf neg =>
    if f.hasInf ∧ sat = false then
      ⟨(if neg then 2 ^ (f.width - 1) else 0) + f.maxCode + 1, 0⟩
    else if f = .e8f2 then
      (if neg then ⟨0, flagNV⟩ else ⟨if sat then 0x3FB else 0x3FC, flagOF + flagNX⟩)
    else match f.int? with
      | some (lo, hi) => ⟨codeOfInt f.width (if neg then lo else hi), flagNV⟩
      | none => overflow f m sat neg
  | .fin neg n d =>
    match f.float? with
    | some (eb, mb, bias) => roundFloat f eb mb bias m sat neg n d
    | none =>
      match f.lns? with
      | some (parts, lmax) => roundLns f parts lmax m sat neg n d
      | none =>
        match f.int? with
        | some (lo, hi) => roundInt f lo hi m neg n d
        | none => roundE8F2 m sat neg n d

/-! ## Exact arithmetic on values -/

/-- Negation. -/
def Val.neg : Val → Val
  | .nan => .nan
  | .inf s => .inf (!s)
  | .fin s n d => .fin (!s) n d

/-- Magnitude. -/
def Val.abs : Val → Val
  | .nan => .nan
  | .inf _ => .inf false
  | .fin _ n d => .fin false n d

/-- The exact product (R153, R135), with whether it is invalid: 0 times an infinity. -/
def Val.mul (x y : Val) : Val × Bool :=
  match x, y with
  | .nan, _ => (.nan, false)
  | _, .nan => (.nan, false)
  | .inf s, .inf t => (.inf (s != t), false)
  | .inf s, .fin t n _ => if n = 0 then (.nan, true) else (.inf (s != t), false)
  | .fin s n _, .inf t => if n = 0 then (.nan, true) else (.inf (s != t), false)
  | .fin s n d, .fin t m e => (.fin (s != t) (n * m) (d * e), false)

/-- The exact sum (R153), with whether it is invalid. An exact zero sum of values that are not both
zeros of one sign is +0, and -0 under RDN. -/
def Val.add (rdn : Bool) (x y : Val) : Val × Bool :=
  match x, y with
  | .nan, _ => (.nan, false)
  | _, .nan => (.nan, false)
  | .inf s, .inf t => if s = t then (.inf s, false) else (.nan, true)
  | .inf s, .fin .. => (.inf s, false)
  | .fin .., .inf t => (.inf t, false)
  | .fin s n d, .fin t m e =>
    if n = 0 ∧ m = 0 then (if s = t then (.fin s 0 1, false) else (.fin rdn 0 1, false))
    else
      let a := n * e
      let b := m * d
      if s = t then (.fin s (a + b) (d * e), false)
      else if a = b then (.fin rdn 0 1, false)
      else if b < a then (.fin s (a - b) (d * e), false)
      else (.fin t (b - a) (d * e), false)

/-- The exact value as a signed fraction compared: x < y on the reals with both infinities. NaN compares
false. -/
def Val.lt (x y : Val) : Bool :=
  match x, y with
  | .nan, _ => false
  | _, .nan => false
  | .inf s, .inf t => s && !t
  | .inf s, .fin .. => s
  | .fin .., .inf t => !t
  | .fin s n d, .fin t m e =>
    let a : Int := if s then -((n * e : Nat) : Int) else (n * e : Nat)
    let b : Int := if t then -((m * d : Nat) : Int) else (m * d : Nat)
    decide (a < b)

/-- IEEE equality: -0 equals +0, a NaN equals nothing. -/
def Val.eqv (x y : Val) : Bool := !x.isNan && !y.isNan && !x.lt y && !y.lt x

/-- The order of FMIN and VMIN: as `lt`, with -0 below +0 (R154). -/
def Val.ltz (x y : Val) : Bool := x.lt y || (x.isZero && y.isZero && x.sign && !y.sign)

/-- A flag as a condition mask. -/
def nvIf (b : Bool) : Nat := if b then flagNV else 0

/-! ## Square roots -/

/-- The integer square root, bit by bit from 2^(k-1) downwards. -/
def isqrtFrom (n : Nat) : Nat → Nat → Nat
  | 0, r => r
  | k + 1, r => isqrtFrom n k (if (r + 2 ^ k) * (r + 2 ^ k) ≤ n then r + 2 ^ k else r)

/-- floor(sqrt n). -/
def isqrt (n : Nat) : Nat := isqrtFrom n (Nat.log2 n / 2 + 1) 0

/-- A fraction that rounds as 1 / sqrt(n / d) does in every format of at most 64 significant bits: the
root to 96 bits or more, with a half unit added where it is not exact. -/
def rsqrtFrac (n d : Nat) : Nat × Nat :=
  let k := Nat.log2 n + Nat.log2 d + 192
  -- sqrt(d / n) = sqrt(d * n) / n, scaled by 2^k
  let t := d * n * 2 ^ (2 * k)
  let r := isqrt t
  if r * r = t then (r, n * 2 ^ k) else (2 * r + 1, n * 2 ^ (k + 1))

/-! ## The counter hash -/

/-- One of the six rounds of R140. -/
def hashRound (k0 k1 i : Nat) (p : Nat × Nat) : Nat × Nat :=
  let m := 2 ^ 32
  let x := (p.1 + k0 + i * 0x9E3779B9) % m
  let y := Nat.xor (Nat.xor p.2 k1) (i * 0x6A09E667 % m)
  let x := x * 0x8F3A5D27 % m
  let x := Nat.xor x (x / 2 ^ 15)
  let y := (y + x) % m
  let y := y * 0xD16B4E93 % m
  let y := Nat.xor y (y / 2 ^ 13)
  (Nat.xor x (y * 2 ^ 7 % m), y)

/-- Hash(key, ctr) of R140. -/
def hash (key ctr : Nat) : Nat :=
  let k0 := bits key 31 0
  let k1 := bits key 63 32
  let p := (List.range 6).foldl (fun p i => hashRound k0 k1 i p) (bits ctr 31 0, bits ctr 63 32)
  Nat.xor p.1 p.2

/-- The counter of a domain and an element index (R141). -/
def counter (domain index : Nat) : Nat := domain * 2 ^ 60 + index % 2 ^ 60

/-- FPCTL.RM as a mode (R129); SR draws in domain 0 at the element's index (R127). -/
def modeOf (rm : Nat) (key index : Nat) : Mode :=
  match rm with
  | 0 => .rne | 1 => .rtz | 2 => .rup | 3 => .rdn
  | _ => .sr (hash key (counter 0 index))

/-- FPCTL.RM for scalar FP32, where SR acts as RNE (R127). -/
def scalarMode (rm : Nat) : Mode :=
  match rm with
  | 1 => .rtz | 2 => .rup | 3 => .rdn | _ => .rne

end Sys2Proof.Machine
end

