-- ==== Sys2Proof/Machine/State.lean ====
section
/-! DEFINITION. The state of the machine as plain data, the reasons a step can stop, and the state after
reset. Sparse memories and tables are lists in one canonical form: keys strictly rising, no entry equal
to what an unlisted key reads as. -/

namespace Sys2Proof.Machine

/-- Why the machine stops. -/
inductive Fault where
  /-- Raised by a step of an agent whose operand names a unit the device does not have (a core of 1,600 or
  more, a hart of 8 or more, a port of 5 or more, a block of 4,096 or more). Safe: the table row exists only
  for the units of the spec. -/
  | noSuchUnit (unit : String) (n : Nat)
deriving DecidableEq, Repr

/-- Why an instruction has no meaning. -/
inductive Refusal where
  /-- Raised by an arm of Dispatch whose instruction has no meaning yet. Safe: nothing is claimed of it. -/
  | notModelled (mnemonic : String)
deriving DecidableEq, Repr

/-- Bytes of a memory that differ from 0, by strictly rising address; an unlisted byte reads 0. -/
abbrev Mem := List Host.Cell

/-- A set of numbers, strictly rising. -/
abbrev NatSet := List Nat

/-- A table of numbers, keys strictly rising, no value 0; an unlisted key reads 0. -/
abbrev Table := List (Nat × Nat)

/-! ## One core -/

/-- The phase states of R55 but for HALTED, which `Core.halted` holds beside the state it returns to. -/
inductive PhaseState where
  | compute | ready | exchange | xready | straggler | absent
deriving DecidableEq, Repr

/-- The code that STATUS.PST reads for a phase state (R55). -/
def PhaseState.code : PhaseState → Nat
  | .compute => 0 | .ready => 1 | .exchange => 2 | .xready => 3 | .straggler => 4 | .absent => 6

/-- A token wait with the ISS value captured for it (R39, R177). -/
structure Wait where
  eng : Eng
  iss : Word
  dist : Nat
deriving DecidableEq, Repr

/-- How far a queued instruction has come: only the exchange engine has several under way (R276, R277). -/
inductive EntryStage where
  | queued | begun | finished
deriving DecidableEq, Repr

/-- An instruction in an engine queue with what it took with it at dispatch: handles (R22), scalars (R41,
R209), token waits (R80), FPCTL and seeds (R129), ACCOWN (R187), the mode it issued in (R112, R288), and for
the exchange engine its transfer identifier (R275), and the core's view of PHASE (R317). -/
structure Entry where
  instr : Instr
  handles : List HandleBits
  scalars : List Nat
  waits : List Wait
  fpctl : Word
  seed : Nat
  accown : BitVec 8
  priv : Bool
  xid : Word
  stage : EntryStage
  phase : BitVec 64
deriving DecidableEq, Repr

/-- What an imprecise trap writes (R195): cause code, sub-code and ETVAL. -/
structure Report where
  code : Nat
  sub : Nat
  etval : Word
deriving DecidableEq, Repr

/-- An engine: its queue with the running instruction first (R37), its counters (R38, R42), whether it is
frozen (R196) and the report still to be taken (R197), and an element held on a full queue register (R36):
the register and the value. -/
structure Engine where
  queue : List Entry
  iss : Word
  done : Word
  mpc : Word
  frozen : Bool
  report : Option Report
  pushing : Option (Nat × Word)
deriving DecidableEq, Repr

/-- An engine with nothing to do. -/
def Engine.idle : Engine :=
  { queue := [], iss := 0, done := 0, mpc := 0, frozen := false, report := none, pushing := none }

/-- Why the front end holds (R37, R80, R29, R183, R179, R180, R190, R111), or that a range change is under way (R166). -/
inductive HoldReason where
  | tokens | room | fullEmpty | qpop | sync | counter | overlay | range
deriving DecidableEq, Repr

/-- The instruction the front end holds, why, the waits it captured (R177), and the granules of its range that it has
changed (R166). -/
structure Held where
  instr : Instr
  why : HoldReason
  waits : List Wait
  done : Nat := 0
deriving DecidableEq, Repr

/-- The control and status registers of R45 that hold values of their own. -/
structure Csrs where
  priv : Bool
  supok : Bool
  pwoob : Bool
  strk : BitVec 8
  cause : Word
  epc : Word
  etval : Word
  evec : Word
  estatus : Word
  phase : BitVec 64
  coreL : BitVec 11
  gang : BitVec 22
  group : BitVec 11
  asid : BitVec 12
  task : Word
  xnext : Vector Word 4
  xdone : Vector Word 4
  land : Vector (BitVec 24) 8
  accown : BitVec 8
  mstat : Word
  vstat : Word
  fpctl : Word
  seedlo : Word
  seedhi : Word
  sigmap : Word
  pwin : BitVec 13
  retired : BitVec 64
  cycle : BitVec 64
  cflsel : Word
  eallow : Word
  lpbeg : Vector Word 4
  lpfin : Vector Word 4
  lpcnt : Vector Word 4
  lpdep : BitVec 3
  dbgctl : Word
  dbgstat : Word
  tracectl : Word
  tracebase : Word
deriving DecidableEq, Repr

/-- What is due at the next instruction boundary (R197): a halt with its HCAUSE (R447), PREEMPT and whether it
only swaps the slots of a sliced gang (R395), STRAGGLE, EXTIME with its sub-code (R370), and the STEP traps due, each
with its sub-code and ETVAL, the first due first (R451, R452). -/
structure Pending where
  halt : Option Nat
  preempt : Bool
  swap : Bool
  straggle : Bool
  extime : Option Nat
  step : List (Nat × Word)
deriving DecidableEq, Repr

/-- A step under way (R451): whether it is STEP.D, whether a DCMD gave it, whether its instruction has
retired, and the tokens STEP.D then waits for. -/
structure Stepping where
  deep : Bool
  host : Bool
  retired : Bool
  tokens : List Wait
deriving DecidableEq, Repr

/-- What the debug and trace unit keeps for a core (R451 to R461): the step under way, and a step command taken while the
STEP trap of a self-hosted step is still due, true for STEP.D (R451). -/
structure CoreDebug where
  stepping : Option Stepping
  asked : Option Bool
  ucnt : BitVec 64
  xord : BitVec 64
  sig : BitVec 64
  fifo : List (BitVec 256)
  dropped : Nat
  conflicts : Table
deriving DecidableEq, Repr

/-- The state of a plane (R242). -/
inductive PlaneState where
  | empty | loading | loaded
deriving DecidableEq, Repr

/-- The poison mark of a plane (R242). -/
inductive PoisonMark where
  | none | quiet | loud
deriving DecidableEq, Repr

/-- A plane (R242): state, weight format code, K extent, the weight codes by 256 c + k, the scales by
column, the block length (0 where unscaled) and the poison mark. A scale is the code of its format. -/
structure Plane where
  state : PlaneState
  wfmt : Nat
  kw : Nat
  weights : Table
  block : Nat
  sfmt : Nat
  scales : Table
  mark : PoisonMark
deriving DecidableEq, Repr

/-- An EMPTY plane (R243). -/
def Plane.reset : Plane :=
  { state := .empty, wfmt := 0, kw := 0, weights := [], block := 0, sfmt := 0, scales := [], mark := .none }

/-- The progress of a matrix instruction that has begun behind the head of its queue (R247): the steps taken, whether
its work has ended (R248), whether a fault of an earlier instruction has stopped it (R266), the first poisoned
source that it has met with whether it must be reported, and the plane's mark that it has met, true where loud (R267). -/
structure Ahead where
  steps : Nat
  ended : Bool
  stopped : Bool
  met : Option (Word × Bool)
  mark : Option Bool
deriving DecidableEq, Repr

/-- The matrix engine's planes (R242), group width and member (R254), droop alarm and what remains of its
alarm span after the alarm's end (R253), the poison and the plane's mark that its head instruction has met (R267), and
the progress of those behind the head that have begun, in queue order (R247). -/
structure Matrix where
  active : Plane
  shadow : Plane
  gw : BitVec 2
  mem : BitVec 3
  alarm : Bool
  span : Nat
  met : Option (Word × Bool)
  mark : Option Bool
  ahead : List Ahead
deriving DecidableEq, Repr

/-- The matrix engine's state at launch (R243, R254). -/
def Matrix.reset : Matrix :=
  { active := .reset, shadow := .reset, gw := 0, mem := 0, alarm := false, span := 0, met := none, mark := none, ahead := [] }

/-- What a translation of one page gave (R355): not ended yet, a frame with its ordering kind (R322), or a
failure kind of R286. va is the page's first address within the transfer, size the bytes translated. -/
inductive PageResult where
  | waiting
  | ok (pa : Nat) (host : Bool) (kind : Nat)
  | fail (kind : Nat)
deriving DecidableEq, Repr

/-- One page's part of a virtual range: its first byte in the range, its length and its translation. -/
structure PageMap where
  off : Nat
  len : Nat
  va : Nat
  res : PageResult
deriving DecidableEq, Repr

/-- A begun transfer of a core (R276, R277): its entry, the pieces still to land, those deferred (R310) and
those sent whose acknowledgement has not come back (R441), its translated pages, whether it has failed as
a whole, whether its failure is recorded (R287), the XBC members at which it failed (R290), whether some granule of a group reduction had no present member (R297),
a stage for a transfer that acts in stages (R111), and whether it has been deferred (R310). A piece number is row or member times 2^16 plus the
piece's place. -/
structure Xfer where
  entry : Entry
  pieces : List Nat
  deferred : List Nat
  acks : List Nat
  pages : List PageMap
  failed : Bool
  counted : Bool
  badMembers : NatSet
  void : Bool
  stage : Nat
  late : Bool
deriving DecidableEq, Repr

/-- A register-window, CSR-image, full/empty or instruction-memory write held until the target's exchange
SYNC, with the key of its order (R315, R349). -/
structure HeldWrite where
  source : Nat
  chan : Nat
  id : Nat
  off : Nat
  data : List Byte
  poisoned : Bool
deriving DecidableEq, Repr

/-- What the launch bus keeps with a core that holds a task (R388, R391, R405): the gang's origin, the
context, ENDPC, and whether PREEMPT was taken in this exchange to end the member (R391). -/
structure TaskFacts where
  origin : Nat
  ctx : Nat
  endpc : Pc
  preempting : Bool
deriving DecidableEq, Repr

/-- An overlay load under way (R111): the pages it replaces, those it makes executable, the CHECK of its
header and the sum of the words that have arrived. -/
structure Overlay where
  mask : BitVec 16
  exec : BitVec 16
  check : Word
  sum : Word
deriving DecidableEq, Repr

/-- A core. Memories: the 20-bit local map (R24), full granules (R28), poisoned 8-byte words (R345),
instruction memory with its pages (R110, R343). `vmet` and `lmet` are the first poisoned element that the running V or
L instruction has met, `vmet` with whether it must be reported (R213, R271), `vrows` the destination rows that the
running V instruction has poisoned (R213), `vpushed` that its last push has entered its queue (R182). `readFull` holds the
full granules as the reads of a landing see them within a core cycle, none outside one (R32). `xfers` are the begun transfers, `faultRec` the channel fault records
(R287), `warm` the context and OVADDR of the last task (R52, R388), `sigLeft` the core cycles
until the core's READY or XREADY reaches the Iris (R366). -/
structure Core where
  phys : Nat
  pc : Pc
  regs : Vector Word 64
  preds : Vector Bool 8
  handles : Vector HandleBits 16
  queues : Vector (List Word) 4
  csr : Csrs
  mem : Mem
  poison : NatSet
  full : NatSet
  readFull : Option NatSet
  imem : Mem
  imemPoison : NatSet
  pageValid : BitVec 16
  pageExec : BitVec 16
  pst : PhaseState
  halted : Bool
  iterMark : Bool
  held : Option Held
  engV : Engine
  engM : Engine
  engL : Engine
  engE : Engine
  matrix : Matrix
  vmet : Option (Word × Bool)
  vrows : NatSet
  vpushed : Bool
  lmet : Option Word
  xfers : List Xfer
  faultRec : Vector (BitVec 128) 4
  heldWrites : List HeldWrite
  overlay : Option Overlay
  task : Option TaskFacts
  warm : Option (Nat × Nat)
  saved : List (Nat × Word)
  sigLeft : Nat
  pend : Pending
  dbg : CoreDebug
deriving DecidableEq, Repr

/-- The CSRs after reset: launch values where R45 states them, else 0 (log 2). -/
def Csrs.reset : Csrs :=
  { priv := false, supok := false, pwoob := false, strk := 0, cause := 0, epc := 0, etval := 0
    evec := 0xF100, estatus := 0, phase := 0, coreL := 0, gang := 0, group := 0, asid := 0, task := 0
    xnext := Vector.replicate 4 0, xdone := Vector.replicate 4 0, land := Vector.replicate 8 0
    accown := 0, mstat := 0, vstat := 0, fpctl := 0, seedlo := 0, seedhi := 0, sigmap := 0, pwin := 0
    retired := 0, cycle := 0, cflsel := 0, eallow := 0
    lpbeg := Vector.replicate 4 0, lpfin := Vector.replicate 4 0, lpcnt := Vector.replicate 4 0
    lpdep := 0, dbgctl := 0, dbgstat := 0, tracectl := 0, tracebase := 0 }

/-- Nothing pending. -/
def Pending.none : Pending :=
  { halt := .none, preempt := false, swap := false, straggle := false, extime := .none, step := [] }

/-- Nothing recorded. -/
def CoreDebug.reset : CoreDebug :=
  { stepping := none, asked := none, ucnt := 0, xord := 0, sig := 0, fifo := [], dropped := 0, conflicts := [] }

/-- Core p after reset: ABSENT (R464), every granule empty (R28), registers at their launch values
(R52; log 2). -/
def Core.reset (p : Nat) : Core :=
  { phys := p, pc := 0
    regs := (Vector.replicate 64 0).set 2 0x80000
    preds := Vector.replicate 8 false, handles := Vector.replicate 16 0
    queues := Vector.replicate 4 [], csr := Csrs.reset
    mem := [], poison := [], full := [], readFull := none, imem := [], imemPoison := [], pageValid := 0, pageExec := 0
    pst := .absent, halted := false, iterMark := false, held := none
    engV := .idle, engM := .idle, engL := .idle, engE := .idle
    matrix := .reset, vmet := none, vrows := [], vpushed := false, lmet := none
    xfers := [], faultRec := Vector.replicate 4 0, heldWrites := [], overlay := none
    task := none, warm := none, saved := [], sigLeft := 0, pend := .none, dbg := .reset }

/-! ## The Iris (12 R362 to R375) -/

/-- The Iris: PHASE, the registers and the values of CTO, XTO, WDOG and SLIM in force (R374), the masks,
the three timers (R367, R370, R371), the expiries of the running exchange, the quiet sweep's remaining core
cycles (R365), the participants of the running exchange (R365), and the cores whose view the phase bus has
still to reach with the cycles it still takes (R366). -/
structure Iris where
  phase : BitVec 64
  ictl : Word
  cto : Word
  xto : Word
  wdog : Word
  slim : Word
  ctoNow : Word
  xtoNow : Word
  wdogNow : Word
  slimNow : Word
  rej : Bool
  nxexp : BitVec 16
  nstrag : BitVec 64
  pmask : NatSet
  smask : NatSet
  ctimer : Nat
  xtimer : Nat
  wtimer : Nat
  fresh : Bool
  expiries : Nat
  sweep : Option Nat
  inExchange : NatSet
  deliver : NatSet
  busLeft : Nat
deriving DecidableEq, Repr

/-- The Iris after reset (R374, R375). -/
def Iris.reset : Iris :=
  { phase := 0, ictl := 6, cto := 0x01000000, xto := 0x01000000, wdog := 0x40000000, slim := 8
    ctoNow := 0x01000000, xtoNow := 0x01000000, wdogNow := 0x40000000, slimNow := 8
    rej := false, nxexp := 0, nstrag := 0, pmask := [], smask := []
    ctimer := 0, xtimer := 0, wtimer := 0, fresh := false, expiries := 0, sweep := none, inExchange := []
    deliver := [], busLeft := 0 }

/-! ## Memory ports and translation (11 R350 to R361) -/

/-- A TLB entry of a map unit (R356): units 0 to 15 are the ports, 16 to 39 the codec engines. `anchor` says
that it is held as an anchor (R357). -/
structure TlbEntry where
  unit : Nat
  asid : Nat
  va : Nat
  size : Nat
  leafAddr : Nat
  leaf : Nat
  shoff : Nat
  count : Nat
  anchor : Bool
deriving DecidableEq, Repr

/-- A walk under way for a core's transfer (R358): the page's address and the pieces it is to translate. -/
structure Walk where
  unit : Nat
  asid : Nat
  va : Nat
  pieces : Nat
  core : Nat
  chan : Nat
  id : Word
deriving DecidableEq, Repr

/-- A fill or a write-back accepted and not yet performed (R292, R294): its issuer, the PHASE of the
exchange that named it, the staging range, its translated pages, the granules that remain, and for a write-back the blocks that it has
entered in a poison list (R346). -/
structure Drain where
  core : Nat
  chan : Nat
  id : Word
  ctx : Nat
  phase : BitVec 64
  slot : Nat
  pages : List PageMap
  left : List Nat
  bad : NatSet
deriving DecidableEq, Repr

/-- Device memory, host memory, staging, and the map units. GDDR and staging hold bytes; poison holds the
listed 64-byte blocks of a port's list (R346) by block address and the poisoned 8-byte words of staging
(R345), stgErr those of them whose uncorrectable error no read has met yet (R286, R345); stgFull the full staging granules; stgRng STGRNG by 64 q + c (R350). -/
structure MapUnits where
  gddr : Mem
  gddrPoison : NatSet
  host : Mem
  staging : Mem
  stgPoison : NatSet
  stgErr : NatSet
  stgFull : NatSet
  stgRng : Table
  atb : BitVec 64
  atbNow : BitVec 64
  sdva : BitVec 64
  sdlen : Word
  sdBusy : Bool
  sdDone : Bool
  sdDrained : Bool
  sdRej : Bool
  sdSeq : BitVec 16
  sdWait : Option Nat
  sdBefore : List Drain
  sdStores : List (Nat × Nat × Word)
  tlb : List TlbEntry
  asidCache : List (Nat × Nat × Nat × Nat)
  walks : List Walk
  fills : List Drain
  backs : List Drain
deriving DecidableEq, Repr

/-- The memory ports after reset (R350, R360). -/
def MapUnits.reset : MapUnits :=
  { gddr := [], gddrPoison := [], host := [], staging := [], stgPoison := [], stgErr := [], stgFull := [], stgRng := []
    atb := 0, atbNow := 0, sdva := 0, sdlen := 0, sdBusy := false, sdDone := false, sdDrained := false
    sdRej := false, sdSeq := 0, sdWait := none, sdBefore := [], sdStores := [], tlb := [], asidCache := [], walks := []
    fills := [], backs := [] }

/-! ## The work distributor (13 R376 to R412) -/

/-- A hart (R376 to R378): its registers, memories, machine-mode CSRs, aperture base, latches, its
events of four words, the oldest first, and whether it waits in WFI. -/
structure Hart where
  x : Vector Word 32
  pc : Word
  imem : Mem
  dmem : Mem
  mstatus : Word
  mtvec : Word
  mepc : Word
  mcause : Word
  mtval : Word
  mscratch : Word
  mie : Word
  mcycle : BitVec 64
  minstret : BitVec 64
  dwin : Word
  devt1 : Word
  devt2 : Word
  devt3 : Word
  dtimeh : Word
  dphaseh : Word
  events : List (BitVec 128)
  waiting : Bool
deriving DecidableEq, Repr

/-- A hart after reset. -/
def Hart.reset : Hart :=
  { x := Vector.replicate 32 0, pc := 0, imem := [], dmem := [], mstatus := 0, mtvec := 0, mepc := 0
    mcause := 0, mtval := 0, mscratch := 0, mie := 0, mcycle := 0, minstret := 0, dwin := 0, devt1 := 0
    devt2 := 0, devt3 := 0, dtimeh := 0, dphaseh := 0, events := [], waiting := false }

/-- An atomic window (R380). -/
structure AtWindow where
  addr : BitVec 64
  a : Word
  b : Word
  res : Word
  casok : Bool
  err : Bool
deriving DecidableEq, Repr

/-- An atomic window after reset. -/
def AtWindow.reset : AtWindow := { addr := 0, a := 0, b := 0, res := 0, casok := false, err := false }

/-- A tile scoreboard (R403): planes as sets of tiles, tile (x, y) being 128 y + x; `freed` the tiles
released in this pass, `fifo` the releases not yet popped. -/
structure Scoreboard where
  cfg : Word
  mask : BitVec 64
  plane0 : NatSet
  plane1 : NatSet
  freed : NatSet
  fifo : List Nat
  passes : BitVec 16
deriving DecidableEq, Repr

/-- A scoreboard after reset. -/
def Scoreboard.reset : Scoreboard :=
  { cfg := 0, mask := 0, plane0 := [], plane1 := [], freed := [], fifo := [], passes := 0 }

/-- A running gang: what the launch bus keeps with it (R405), whether it is flagged for pre-emption (R407),
its members' physical cores by member index, those still running, of a sliced gang the logical cores that have ended on a
physical core that has others to run (R395), and what its END event reports (R391, R392). -/
structure Gang where
  origin : Nat
  size : Nat
  ctx : Nat
  queue : Nat
  ring : Nat
  key : BitVec 64
  task : Word
  energy : Nat
  nopre : Bool
  flagged : Bool
  members : List Nat
  live : NatSet
  ended : NatSet
  preempted : Bool
  discarded : Bool
deriving DecidableEq, Repr

/-- A launch under way (R388, R389): what its last step still needs. -/
structure Launch where
  gang : Gang
  resume : Bool
  idx : Nat
  endpc : Pc
deriving DecidableEq, Repr

/-- A residency set that the assist watches (R396): the launch's LBIDX and its staging granules. -/
structure Watch where
  idx : Word
  granules : List Nat
deriving DecidableEq, Repr

/-- A graph task node that has appended its record and whose task has not completed (R402): the queue, the
record's ring index, the node and the stream whose frame it belongs to (0 none). -/
structure GraphTask where
  queue : Nat
  idx : Nat
  node : Nat
  sd : Nat
deriving DecidableEq, Repr

/-- An append that a full queue holds (R402): the queue, the loop record's address, the node, its stream. -/
structure HeldAppend where
  queue : Nat
  record : Nat
  node : Nat
  sd : Nat
deriving DecidableEq, Repr

/-- Work of the shipped microcode that waits while no hart runs (R379, R464): a record completes with a status, the graph node
of a record retires, the appends that a queue holds are tried again, or a stream falls a rung. -/
inductive Chore
  | complete (queue idx status key : Nat)
  | node (queue idx key : Nat)
  | append (queue : Nat)
  | rungDown (tag : Word) (key : Nat)
deriving DecidableEq, Repr

/-- A context fault as the device reports it (R198): the core, and CAUSE, EPC and ETVAL of the event. -/
structure FaultReport where
  core : Nat
  cause : Word
  epc : Word
  etval : Word
deriving DecidableEq, Repr

/-- The work distributor. `stalled` holds the events that their assists hold while a hart's queue is full, each with its hart,
and `ended` the ends of gangs that the launch bus holds until it can queue END, each with whether its record then completes
(R378). `sorter` holds (key, tag, whether SLACKNEG was queued) in the order inserted;
`mirror` the entries of R394 that differ from the default; `heldMirror` the writes held until a core is
ABSENT; `nodes` and `heldAppends` the graph nodes under way (R402), `completed` the records of a queue that
have completed behind one that has not (R387), `chores` what waits until a hart runs the microcode (R464), `graphSignals` the predecessor signals still to be counted, each
a node and its stream (R402), `grun` the low half of a GRUN write, `fell` the streams that fell a
rung in this frame, `placed` the energy placed since the last EPUB (R400), `deferred` the records, by queue and ring
index, that were deferred for energy since (R400), `logHeld` the records that arrive in the core cycle under way, each with its
kind, while one is (R405), `report` the last context fault reported (R198). -/
structure Distributor where
  run : Bool
  img : Bool
  pbad : Bool
  dlbad : Bool
  gbad : Bool
  qdir : BitVec 64
  grun : Word
  ctxBusy : Bool
  eallowd : Word
  dlbase : BitVec 64
  dlsize : Word
  dlhead : Word
  dlw : Vector Word 4
  dlcnt : Vector Nat 8
  logHeld : Option (List (Nat × List Byte))
  sskey : BitVec 64
  sorter : List (Nat × Word × Bool)
  ssFull : Bool
  plshape : Option Word
  lbrec : BitVec 64
  lbarg : Word
  lbresult : Nat
  lbidx : Word
  lbkey : BitVec 64
  lbparam : Mem
  launch : Option Launch
  contexts : Vector (BitVec 128) 64
  mirror : Table
  heldMirror : List (Nat × Word)
  gangs : List Gang
  watches : List Watch
  boards : Vector Scoreboard 16
  windows : Vector AtWindow 8
  harts : Vector Hart 8
  stalled : List (Nat × BitVec 128)
  ended : List (Gang × Bool)
  signals : Mem
  nodes : List GraphTask
  heldAppends : List HeldAppend
  completed : List (Nat × Nat)
  chores : List Chore
  graphSignals : List (Nat × Nat)
  fell : NatSet
  placed : Nat
  deferred : List (Nat × Nat)
  report : Option FaultReport
  ucode : List Byte
deriving DecidableEq, Repr

/-- The distributor after reset (R379, R403). -/
def Distributor.reset : Distributor :=
  { run := false, img := false, pbad := false, dlbad := false, gbad := false, qdir := 0, grun := 0, ctxBusy := false
    eallowd := 0, dlbase := 0, dlsize := 0, dlhead := 0, dlw := Vector.replicate 4 0
    dlcnt := Vector.replicate 8 0, logHeld := none, sskey := 0, sorter := [], ssFull := false, plshape := none, lbrec := 0
    lbarg := 0, lbresult := 0, lbidx := 0, lbkey := 0, lbparam := [], launch := none
    contexts := Vector.replicate 64 0, mirror := [], heldMirror := [], gangs := [], watches := []
    boards := Vector.replicate 16 .reset, windows := Vector.replicate 8 .reset
    harts := Vector.replicate 8 .reset, stalled := [], ended := [], signals := [], nodes := []
    heldAppends := [], completed := [], chores := [], graphSignals := [], fell := [], placed := 0, deferred := [], report := none
    ucode := [] }

/-! ## The debug unit (16 R463) -/

/-- One context's block of the debug unit (R463), with the exchanges begun since its last checkpoint
or its first launch, none before that (R452), the UCNT that a slot's checkpoint saved for logical core L at 2048 slot + L, and the interval that
logical core L runs, plus 1 (R454). -/
structure DebugCtx where
  ckbase : BitVec 64
  ckctl : Word
  ckidx : Word
  slbase : BitVec 64
  mode : Nat
  begun : Option Nat
  ucntAt : Table
  runs : Table
deriving DecidableEq, Repr

/-- A context's block after reset. -/
def DebugCtx.reset : DebugCtx :=
  { ckbase := 0, ckctl := 0, ckidx := 0, slbase := 0, mode := 0, begun := none, ucntAt := [], runs := [] }

/-- The debug unit (R463). -/
structure DebugUnit where
  ctx : Nat
  armed : Bool
  iv : Word
  core : Word
  cnt : BitVec 64
  div : Bool
  slf : Bool
  divcore : BitVec 11
  divphase : BitVec 64
  ctxs : Vector DebugCtx 64
deriving DecidableEq, Repr

/-- The debug unit after reset (R463). -/
def DebugUnit.reset : DebugUnit :=
  { ctx := 0, armed := false, iv := 0, core := 0, cnt := 0, div := false, slf := false, divcore := 0
    divphase := 0, ctxs := Vector.replicate 64 .reset }

/-! ## The codec engines (14 R413 to R427) -/

/-- A row of a plane: its samples, whether it ends the plane of its picture, early or not (R419), and TIME
when it entered. -/
structure PlaneRow where
  samples : List Nat
  last : Bool
  short : Bool
  time : BitVec 64
deriving DecidableEq, Repr

/-- A plane queue (R417, R424): its rows, the oldest first; the rows of the filling picture that have
entered, and whether that picture was abandoned, so that its rows are dropped (R426); of the picture being coded
or output, the rows taken or made, whether its last row was taken, and that row; `part` holds the samples of a row
whose pieces are under way (R276, R302); for a decoder `made` holds the rows put out of the picture in progress and
`ref` those of the picture before it (R425). -/
structure PlaneQueue where
  rows : List PlaneRow
  entered : Nat
  skip : Bool
  taken : Nat
  ended : Bool
  short : Bool
  final : List Nat
  head : Nat
  part : List Nat
  made : List (List Nat)
  ref : List (List Nat)
deriving DecidableEq, Repr

/-- An empty plane queue. -/
def PlaneQueue.reset : PlaneQueue :=
  { rows := [], entered := 0, skip := false, taken := 0, ended := false, short := false, final := [], head := 0, part := []
    made := [], ref := [] }

/-- How far the picture in progress has come (R419, R422, R424): nothing yet, coded up to a block row, or
its chunks being written: the bytes of its bitstream that are left, or of an abandoned picture its one record. -/
inductive PicStage where
  | idle
  | coding (row : Nat)
  | chunks (left : Nat) (failed : Bool)
deriving DecidableEq, Repr

/-- The records of a frame ring that no message has covered yet (R423): the ring, named by its address space and its address
there, the engine that wrote the newest, their number, TIME at which the first was written, and VEC and CTIME as they stood
when the newest was written (log 112). -/
structure PendingRecords where
  asid : Nat
  ring : BitVec 64
  engine : Nat
  count : Nat
  since : BitVec 64
  vec : Nat
  ctime : Nat
deriving DecidableEq, Repr

/-- A codec engine (R413): engines 0 to 15 encode, 16 to 23 decode. `pics` pictures finished, `picnum` the
number of the picture in progress, `lastEnd` the end of the previous chunk in the data area, `srctime` TIME when the picture's last plane completed,
`keyNext` that the next picture is coded as a key picture (R426), `coded` the rows of samples that the picture in
progress has been coded from; for a decoder `ready` the pictures whose
bitstream has been taken whole, each with whether it is damaged, `reading` that chunks of a picture
have been taken and its last has not (R413), and `damaged` that of the one being read. -/
structure Codec where
  en : Bool
  cfg : Word
  size : Word
  rate : Word
  gop : Word
  cctx : Word
  ref : BitVec 64
  refsz : Word
  ring : BitVec 64
  rej : Bool
  held : Bool
  pics : Nat
  picnum : Nat
  stage : PicStage
  planes : Vector PlaneQueue 3
  lastEnd : Nat
  srctime : BitVec 64
  keyNext : Bool
  coded : List (List Nat)
  ready : List Bool
  reading : Bool
  damaged : Bool
deriving DecidableEq, Repr

/-- A codec engine after reset. -/
def Codec.reset : Codec :=
  { en := false, cfg := 0, size := 0, rate := 0, gop := 0, cctx := 0, ref := 0, refsz := 0, ring := 0
    rej := false, held := false, pics := 0, picnum := 0, stage := .idle
    planes := Vector.replicate 3 .reset, lastEnd := 0, srctime := 0
    keyNext := false, coded := [], ready := [], reading := false, damaged := false }

/-! ## Ports and peers (15 R432 to R446) -/

/-- A PCI Express port (R438): PLINK and PCFG. -/
structure PciePort where
  speed : Nat
  width : Nat
  cfg : Word
deriving DecidableEq, Repr

/-- The state of a peer reduction block (R439). -/
inductive BlockState where
  | idle | collect | done
deriving DecidableEq, Repr

/-- A peer reduction block (R439): its state, the seven descriptor words, and at the home the bytes that
have arrived, keyed rank times 2^24 plus offset, with those of poisoned messages (R443). -/
structure PeerBlock where
  state : BlockState
  words : Vector Word 7
  arrived : NatSet
  bytes : Mem
  taint : NatSet
deriving DecidableEq, Repr

/-- A block after reset. -/
def PeerBlock.reset : PeerBlock :=
  { state := .idle, words := Vector.replicate 7 0, arrived := [], bytes := [], taint := [] }

/-- A contribution on its way: the issuing core, its transfer and piece, and what names it in an
acknowledgement (R442). -/
structure Contribution where
  core : Nat
  chan : Nat
  id : Word
  piece : Nat
  block : Nat
  offset : Nat
deriving DecidableEq, Repr

/-- The peer reduction unit (R439). -/
structure PeerUnit where
  myrank : Word
  rej : Bool
  ndup : BitVec 64
  rankPort : Table
  rankBase : Table
  blocks : List (Nat × PeerBlock)
  waiting : List Contribution
deriving DecidableEq, Repr

/-- The peer reduction unit after reset. -/
def PeerUnit.reset : PeerUnit :=
  { myrank := 0, rej := false, ndup := 0, rankPort := [], rankBase := [], blocks := [], waiting := [] }

/-! ## Management and power (17 R464 to R475) -/

/-- What an SPDM requester has negotiated (R470). -/
structure Spdm where
  version : Bool
  caps : Bool
  algs : Bool
deriving DecidableEq, Repr

/-- How the work of stages 1 and 2 goes (R464): whether the SRAM self-test passes, the GDDR 7 training completes and the
distributor microcode, where it verifies, can be loaded, which arrays are repaired, and which physical cores are found to be disabled. -/
structure StageWork where
  selfTest : Bool
  training : Bool
  microcode : Bool
  repairs : List Nat
  disabled : List Nat
deriving DecidableEq, Repr

/-- The management controller: BOOTSTAT (R466), the mailbox (R469), the image in flash and the one running,
the fuses (R467): the owner digest where fused, the counters of KIND 1 and 2; the microcode image that LOADUC has verified
and that the next stage 2 takes, none for the default one; and whether the device is held in reset. `repairs` are the SRAM arrays repaired and `disabled` the
physical cores that are disabled (R394, R466, R470), by rising number; `idKey` is the device identity key (R470), and
`mbBusy` the mailbox command under way (R469). `work` is the model's own: plain data that says how the work of the stages goes
(log 101). -/
structure Mgmt where
  inReset : Bool
  stage : Nat
  err : Bool
  recov : Bool
  repairs : List Nat
  disabled : List Nat
  idKey : List Byte
  work : StageWork
  mbBusy : Option Nat
  mbResult : Nat
  mbRej : Bool
  mbbuf : Mem
  flash : List Byte
  firmware : List Byte
  ownerDigest : Option (List Byte)
  svnFirmware : Nat
  svnMicrocode : Nat
  ucImage : List Byte
  corrected : Nat
  linkErrors : Nat
  spdm : Spdm
deriving DecidableEq, Repr

/-- The management controller as delivered: nothing fused but the root digest of Config (log 12). -/
def Mgmt.reset : Mgmt :=
  { inReset := true, stage := 0, err := false, recov := false, repairs := [], disabled := [], idKey := []
    work := { selfTest := true, training := true, microcode := true, repairs := [], disabled := [] }
    mbBusy := none, mbResult := 0, mbRej := false
    mbbuf := [], flash := [], firmware := [], ownerDigest := none, svnFirmware := 0
    svnMicrocode := 0, ucImage := [], corrected := 0, linkErrors := 0, spdm := { version := false, caps := false, algs := false } }

/-- The power controller (R472 to R475): its registers, its three requests with the frames that the current
request has left, SWCTL.NSW, and the energy account in nJ with TIME of its last publication. -/
structure Power where
  plim : Nat
  pburst : Nat
  droop : Nat
  reqPower : Nat
  reqCurrent : Nat
  reqThermal : Nat
  currentFrames : Nat
  nsw : Nat
  pulse : Nat
  ndroop : Nat
  tj : Nat
  account : Nat
  tlast : BitVec 64
  coreClock : Bool
deriving DecidableEq, Repr

/-- The power controller after reset (R474, R475). -/
def Power.reset : Power :=
  { plim := 3000, pburst := 400000, droop := 460, reqPower := 0, reqCurrent := 0, reqThermal := 0
    currentFrames := 0, nsw := 0, pulse := 0, ndroop := 0, tj := 0, account := 400000000, tlast := 0, coreClock := true }

/-- What leaves the device: a message of the peer reduction unit or a posted write through a port (R442), an
MSI-X message (R436), an answer to a PCI Express request with its status (0 success, 1 Unsupported Request,
2 Completer Abort), its bytes and EP (R432), and an SPDM answer (R470). -/
inductive Output where
  | peer (port : Nat) (m : PeerMsg)
  | write (port : Nat) (addr : Nat) (data : List Byte) (poisoned : Bool)
  | msix (fn : Nat) (entry : Nat)
  | completion (status : Nat) (data : List Byte) (poisoned : Bool)
  | spdm (code : Nat) (index : Nat) (data : List Byte)
deriving DecidableEq, Repr

/-! ## The device -/

/-- Which agent moves next (log 4): a step of an agent by its opcode-table row, the front end of core p, hart h, or
the passing of core cycles and nanoseconds, core cycles that a requester of core p loses at a scratchpad
bank (R339, R461), the front ends and steps of agents that fall in one core cycle (R32, R205, R446), or the shipped
microcode's start of the record at the head of queue q (R387). -/
inductive Turn where
  | event (i : Instr)
  | front (p : Nat)
  | hart (h : Nat)
  | tick (cycles ns : Nat)
  | conflict (p bank req cycles : Nat)
  | together (fronts : List Nat) (steps : List Instr)
  | start (q : Nat)
deriving DecidableEq, Repr

/-- The whole device. `core` is the core whose front end executes; the other cores that differ from
`Core.reset` stand in `others`, by rising number. `ringPend` holds the frame rings with records pending for MSI-X (R423), `vfBase` is VFGBASE (R438), `numVfs` NumVFs (R436), `msixOpen`
the MSI-X entries that are not masked, `msixPend` those with a message pending (R436, by msixKey), `out`
what has left the device, the oldest first. -/
structure State where
  core : Core
  others : List (Nat × Core)
  turns : List Turn
  nfree : Nat
  time : BitVec 64
  iris : Iris
  map : MapUnits
  dist : Distributor
  debugUnit : DebugUnit
  codecs : Vector Codec 24
  ringPend : List PendingRecords
  ports : Vector PciePort 5
  vfBase : Vector (BitVec 64) 64
  numVfs : Nat
  msixOpen : NatSet
  msixPend : NatSet
  peer : PeerUnit
  mgmt : Mgmt
  power : Power
  out : List Output
deriving DecidableEq, Repr

/-- The device after reset. -/
def State.reset : State :=
  { core := Core.reset 0, others := [], turns := [], nfree := 0, time := 0
    iris := .reset, map := .reset, dist := .reset, debugUnit := .reset
    codecs := Vector.replicate 24 .reset, ringPend := []
    ports := Vector.replicate 5 { speed := 0, width := 0, cfg := 0 }
    vfBase := Vector.replicate 64 0, numVfs := 0, msixOpen := [], msixPend := [], peer := .reset, mgmt := .reset, power := .reset, out := [] }

end Sys2Proof.Machine
end

