-- ==== Sys2Proof/Machine/Ops.lean ====
section
/-! DEFINITION. The named operations over memories, sets, tables, registers and cores that every meaning
uses; retirement and the hardware loops (R173, R174); entering a trap and returning from one (R194,
R199). -/

namespace Sys2Proof.Machine

/-! ## Sparse memories, sets and tables -/

/-- One byte of a memory. -/
def memRead : Mem → Nat → Byte
  | [], _ => 0
  | (k, x) :: t, a => if a < k then 0 else if a = k then x else memRead t a

/-- Store one byte; storing 0 removes the entry. -/
def memWrite : Mem → Nat → Byte → Mem
  | [], a, b => if b = 0 then [] else [(a, b)]
  | (k, x) :: t, a, b =>
    if a < k then (if b = 0 then (k, x) :: t else (a, b) :: (k, x) :: t)
    else if a = k then (if b = 0 then t else (a, b) :: t)
    else (k, x) :: memWrite t a b

/-- The canonical form of a memory: addresses strictly rising from at least lo, no byte 0. -/
def memWfFrom : Nat → Mem → Bool
  | _, [] => true
  | lo, (k, x) :: t => decide (lo ≤ k) && x != 0 && memWfFrom (k + 1) t

/-- The canonical form of a memory. -/
def memWf (m : Mem) : Bool := memWfFrom 0 m

/-- n bytes from a, little-endian (R4). -/
def readLE (m : Mem) (a : Nat) : Nat → Nat
  | 0 => 0
  | n + 1 => (memRead m a).toNat + 256 * readLE m (a + 1) n

/-- The low n bytes of v to a and up, little-endian (R4). -/
def writeLE (m : Mem) (a : Nat) : Nat → Nat → Mem
  | 0, _ => m
  | n + 1, v => writeLE (memWrite m a (BitVec.ofNat 8 v)) (a + 1) n (v / 256)

/-- n bytes from a as a list. -/
def readBytes (m : Mem) (a : Nat) : Nat → List Byte
  | 0 => []
  | n + 1 => memRead m a :: readBytes m (a + 1) n

/-- A list of bytes to a and up. -/
def writeBytes (m : Mem) (a : Nat) : List Byte → Mem
  | [] => m
  | b :: bs => writeBytes (memWrite m a b) (a + 1) bs

/-- The bytes from lo up to hi set to 0. -/
def memZero (m : Mem) (lo hi : Nat) : Mem := m.filter (fun c => decide (c.1 < lo ∨ hi ≤ c.1))

/-- A little-endian number from a list of bytes. -/
def natOfBytes : List Byte → Nat
  | [] => 0
  | b :: bs => b.toNat + 256 * natOfBytes bs

/-- The low n bytes of a number, little-endian. -/
def bytesOfNat : Nat → Nat → List Byte
  | 0, _ => []
  | n + 1, v => BitVec.ofNat 8 v :: bytesOfNat n (v / 256)

/-- Membership of a set. -/
def setHas : NatSet → Nat → Bool
  | [], _ => false
  | k :: t, a => if a < k then false else if a = k then true else setHas t a

/-- Add a number to a set. -/
def setAdd : NatSet → Nat → NatSet
  | [], a => [a]
  | k :: t, a => if a < k then a :: k :: t else if a = k then k :: t else k :: setAdd t a

/-- Remove a number from a set. -/
def setDel : NatSet → Nat → NatSet
  | [], _ => []
  | k :: t, a => if a < k then k :: t else if a = k then t else k :: setDel t a

/-- Add or remove. -/
def setPut (s : NatSet) (a : Nat) (b : Bool) : NatSet := if b then setAdd s a else setDel s a

/-- Add the numbers from lo up to hi. -/
def setAddRange (s : NatSet) (lo hi : Nat) : NatSet :=
  s.filter (fun k => decide (k < lo)) ++ List.range' lo (hi - lo) ++ s.filter (fun k => decide (hi ≤ k ∧ lo ≤ k))

/-- Remove the numbers from lo up to hi. -/
def setDelRange (s : NatSet) (lo hi : Nat) : NatSet := s.filter (fun k => decide (k < lo ∨ hi ≤ k))

/-- The canonical form of a set. -/
def setWfFrom : Nat → NatSet → Bool
  | _, [] => true
  | lo, k :: t => decide (lo ≤ k) && setWfFrom (k + 1) t

/-- The value of a table at a key. -/
def tabGet : Table → Nat → Nat
  | [], _ => 0
  | (k, v) :: t, a => if a < k then 0 else if a = k then v else tabGet t a

/-- Set the value of a table at a key; 0 removes the entry. -/
def tabPut : Table → Nat → Nat → Table
  | [], a, v => if v = 0 then [] else [(a, v)]
  | (k, x) :: t, a, v =>
    if a < k then (if v = 0 then (k, x) :: t else (a, v) :: (k, x) :: t)
    else if a = k then (if v = 0 then t else (a, v) :: t)
    else (k, x) :: tabPut t a v

/-- Look a key up in an association list. -/
def assocGet {α : Type} : List (Nat × α) → Nat → Option α
  | [], _ => none
  | (k, v) :: t, a => if a = k then some v else assocGet t a

/-- Put a value at a key of an association list with rising keys. -/
def assocPut {α : Type} : List (Nat × α) → Nat → α → List (Nat × α)
  | [], a, v => [(a, v)]
  | (k, x) :: t, a, v =>
    if a < k then (a, v) :: (k, x) :: t else if a = k then (a, v) :: t else (k, x) :: assocPut t a v

/-- Remove a key of an association list. -/
def assocDel {α : Type} (l : List (Nat × α)) (a : Nat) : List (Nat × α) := l.filter (fun p => p.1 != a)

/-- Replace the element at a place of a list, if there is one. -/
def listPut {α : Type} (l : List α) (i : Nat) (x : α) : List α := l.set i x

/-- The number whose bit i is f i, for i below n. -/
def natOfBits (f : Nat → Bool) : Nat → Nat
  | 0 => 0
  | n + 1 => natOfBits f n + (if f n then 2 ^ n else 0)

/-- Whether bit i of a word is set. -/
def wbit (x : Word) (i : Nat) : Bool := x.toNat / 2 ^ i % 2 == 1

/-! ## Registers -/

/-- A scalar register; s0 reads 0 (R14). -/
def Core.reg (c : Core) (n : Nat) : Word := if n = 0 then 0 else c.regs[n]?.getD 0

/-- Write a scalar register; a write to s0 is discarded (R14). -/
def Core.setReg (c : Core) (n : Nat) (v : Word) : Core :=
  if n = 0 then c else { c with regs := c.regs.setIfInBounds n v }

/-- The value of k registers from n on, the first in the low bits (R16). -/
def Core.regsFrom (c : Core) (n : Nat) : Nat → Nat
  | 0 => 0
  | k + 1 => (c.reg n).toNat + 2 ^ 32 * c.regsFrom (n + 1) k

/-- Write k registers from n on with the low bits of v (R16). -/
def Core.setRegsFrom (c : Core) (n : Nat) : Nat → Nat → Core
  | 0, _ => c
  | k + 1, v => (c.setReg n (BitVec.ofNat 32 v)).setRegsFrom (n + 1) k (v / 2 ^ 32)

/-- Reg(n, W) of 05_scalar_instructions (R15, R16). -/
def Core.group (c : Core) (n w : Nat) : Nat := c.regsFrom n (2 ^ w)

/-- SetReg(n, W, v) (R15, R16). -/
def Core.setGroup (c : Core) (n w v : Nat) : Core := c.setRegsFrom n (2 ^ w) v

/-- A predicate; p0 reads true (R17). -/
def Core.pred (c : Core) (n : Nat) : Bool := if n = 0 then true else c.preds[n]?.getD false

/-- Write a predicate; a write to p0 is discarded (R17). -/
def Core.setPred (c : Core) (n : Nat) (b : Bool) : Core :=
  if n = 0 then c else { c with preds := c.preds.setIfInBounds n b }

/-- A handle (R19). -/
def Core.handle (c : Core) (n : Nat) : HandleBits := c.handles[n]?.getD 0

/-- Write a handle. -/
def Core.setHandle (c : Core) (n : Nat) (v : HandleBits) : Core :=
  { c with handles := c.handles.setIfInBounds n v }

/-- A queue register's entries, the oldest first (R35). -/
def Core.queue (c : Core) (n : Nat) : List Word := c.queues[n]?.getD []

/-- Replace a queue register's entries. -/
def Core.setQueue (c : Core) (n : Nat) (q : List Word) : Core :=
  { c with queues := c.queues.setIfInBounds n q }

/-- An engine of a core. -/
def Core.eng (c : Core) : Eng → Engine
  | .V => c.engV | .M => c.engM | .L => c.engL | .E => c.engE

/-- Replace an engine of a core. -/
def Core.setEng (c : Core) (e : Eng) (x : Engine) : Core :=
  match e with
  | .V => { c with engV := x }
  | .M => { c with engM := x }
  | .L => { c with engL := x }
  | .E => { c with engE := x }

/-- The engine codes of R77. -/
def engCode : Eng → Nat
  | .V => 0 | .M => 1 | .L => 2 | .E => 3

/-- The engine of a code of R77. -/
def engOfCode : Nat → Eng
  | 0 => .V | 1 => .M | 2 => .L | _ => .E

/-- The queue depths of R37. -/
def engDepth : Eng → Nat
  | .V => 16 | .M => 16 | .L => 8 | .E => 32

/-! ## The local address map -/

/-- The scratchpad of R24. -/
def inScratch (a : Nat) : Bool := decide (a < 0x80000)

/-- The accumulators of R24. -/
def inAcc (a : Nat) : Bool := decide (0x80000 ≤ a ∧ a < 0xA0000)

/-- The parameter window of R24. -/
def inWindow (a : Nat) : Bool := decide (0xA0000 ≤ a ∧ a < 0xA1000)

/-- A mapped local address (R24). -/
def localMapped (a : Nat) : Bool := decide (a < 0xA1000)

/-- The accumulator bank of an address (R24). -/
def bankOf (a : Nat) : Nat := (a - 0x80000) / 0x4000

/-- A CSR of four words in a row. -/
def vec4 (v : Vector Word 4) (i : Nat) : Word := v[i]?.getD 0

/-- The granules that n bytes from a touch in the scratchpad (R28). -/
def granules (a n : Nat) : List Nat :=
  (List.range' (a / 16) ((a + n - 1) / 16 + 1 - a / 16)).filter (fun g => decide (g < 0x8000))

/-- The 8-byte words that n bytes from a touch (R345). -/
def eccWords (a n : Nat) : List Nat := List.range' (a / 8) ((a + n - 1) / 8 + 1 - a / 8)

/-- The full granules as a read meets them: within a core cycle as they stood before it (R32). -/
def Core.seenFull (c : Core) : NatSet := c.readFull.getD c.full

/-- The full/empty state of the granule of an address, as a read meets it: full outside the scratchpad (R28). -/
def Core.isFull (c : Core) (a : Nat) : Bool := !inScratch a || setHas c.seenFull (a / 16)

/-- The first empty granule that a read touches, as its address. -/
def Core.firstEmpty (c : Core) (a n : Nat) : Option Nat :=
  ((granules a n).find? (fun g => !setHas c.seenFull g)).map (16 * ·)

/-- The first full granule that an access touches, as its address. -/
def Core.firstFull (c : Core) (a n : Nat) : Option Nat :=
  ((granules a n).find? (fun g => setHas c.full g)).map (16 * ·)

/-- The first poisoned 8-byte word that an access touches, as its address (R160). -/
def Core.firstPoison (c : Core) (a n : Nat) : Option Nat :=
  ((eccWords a n).find? (fun w => setHas c.poison w)).map (8 * ·)

/-- Set the granules that n bytes from a touch full or empty. -/
def Core.markFull (c : Core) (a n : Nat) (b : Bool) : Core :=
  { c with full := (granules a n).foldl (fun s g => setPut s g b) c.full }

/-- Clean the poison of every 8-byte word that lies whole in n bytes from a (R162). -/
def Core.cleanPoison (c : Core) (a n : Nat) : Core :=
  { c with poison := setDelRange c.poison (ceilDiv a 8) ((a + n) / 8) }

/-- n bytes of local memory from a, as a number. -/
def Core.readLocal (c : Core) (a n : Nat) : Nat := readLE c.mem a n

/-- A local store of n bytes: the bytes change, the granules become full, whole words lose their poison
(R30, R162). -/
def Core.storeLocal (c : Core) (a n v : Nat) : Core :=
  ({ c with mem := writeLE c.mem a n v }.markFull a n true).cleanPoison a n

/-! ## STATUS and the trap registers -/

/-- The phase state as STATUS.PST reads it (R55). -/
def Core.pstCode (c : Core) : Nat := if c.halted then 5 else c.pst.code

/-- STATUS.XBLK: the view is odd and the core is no straggler (R48). -/
def Core.xblk (c : Core) : Bool := c.csr.phase.toNat % 2 == 1 && c.pst != .straggler

/-- A bit as a number. -/
def bit (b : Bool) : Nat := if b then 1 else 0

/-- STATUS as software reads it (R48). DET is the chip's mode. -/
def Core.status (c : Core) (det : Bool) : Word :=
  BitVec.ofNat 32 (bit c.csr.priv + 2 * bit c.csr.supok + 4 * bit c.csr.pwoob + 8 * bit det +
    16 * bit c.xblk + 32 * c.pstCode + 256 * c.csr.strk.toNat)

/-- What a trap writes into CAUSE and ETVAL (R49, R195), and where EPC points. -/
structure Trap where
  code : Nat
  word : Nat
  eng : Nat
  imp : Bool
  sub : Nat
  epc : Pc
  etval : Word
deriving DecidableEq, Repr

/-- CAUSE of R49. -/
def Trap.cause (t : Trap) : Word :=
  BitVec.ofNat 32 (t.code + 2 ^ 8 * t.word + 2 ^ 10 * t.eng + 2 ^ 12 * bit t.imp + 2 ^ 13 * t.sub)

/-- A precise trap at the instruction the front end stands at. -/
def Core.precise (c : Core) (code sub : Nat) (etval : Word) : Trap :=
  { code := code, word := 0, eng := 0, imp := false, sub := sub, epc := c.pc, etval := etval }

/-- A PC from a register: bits [15:2] with 0b00 below (R194, R199). -/
def pcOf (w : Word) : Pc := BitVec.ofNat 16 (bits w.toNat 15 2 * 4)

/-! ## Trace records (R459, R460) -/

/-- A trace record of four 8-byte words. -/
def traceRecord (w0 w1 w2 w3 : Nat) : BitVec 256 :=
  BitVec.ofNat 256 (w0 % 2 ^ 64 + 2 ^ 64 * (w1 % 2 ^ 64) + 2 ^ 128 * (w2 % 2 ^ 64) + 2 ^ 192 * (w3 % 2 ^ 64))

/-- Recording can proceed: neither SUSP nor FULL is set and the FIFO has room (R458, R460). -/
def Core.traceRoom (c : Core) : Bool :=
  bits c.csr.tracectl.toNat 1 1 == 0 && bits c.csr.tracectl.toNat 6 6 == 0 && c.dbg.fifo.length < 8

/-- Queue the LOST record once recording can proceed again (R460). -/
def Core.flushLost (c : Core) : Core :=
  if c.dbg.dropped = 0 ∨ !c.traceRoom then c
  else
    let r := traceRecord (4 + 2 ^ 32 * min c.dbg.dropped (2 ^ 32 - 1)) 0 c.csr.cycle.toNat c.csr.phase.toNat
    { c with dbg := { c.dbg with fifo := c.dbg.fifo ++ [r], dropped := 0 } }

/-- Offer a record to the FIFO when the enable bit of TRACECTL and EN are set (R458, R460). -/
def Core.trace (c : Core) (enable : Nat) (r : BitVec 256) : Core :=
  if bits c.csr.tracectl.toNat 0 0 = 0 ∨ bits c.csr.tracectl.toNat enable enable = 0 then c
  else
    let c := c.flushLost
    if c.traceRoom then { c with dbg := { c.dbg with fifo := c.dbg.fifo ++ [r] } }
    else { c with dbg := { c.dbg with dropped := c.dbg.dropped + 1 } }

/-! ## The conflict matrix (R461) -/

/-- The conflict-matrix cell of a requester and a bank, as a key (R461). -/
def conflictKey (req bank : Nat) : Nat := req * 64 + bank

/-- A requester loses core cycles at a scratchpad bank (R339, R340, R461): its counter saturates, and the sum since
the last CFL snapshot, kept at 0x1000 + req, grows (R462). -/
def Core.lose (c : Core) (bank req n : Nat) : Core :=
  let k := conflictKey (req % 12) (bank % 64)
  let cf := tabPut c.dbg.conflicts k (min (tabGet c.dbg.conflicts k + n) (2 ^ 32 - 1))
  let cf := tabPut cf (0x1000 + req % 12) (tabGet cf (0x1000 + req % 12) + n)
  { c with dbg := { c.dbg with conflicts := cf } }

/-! ## Retirement and the hardware loops -/

/-- The innermost level's register of a loop CSR; 0 where LPDEP names no level. -/
def loopReg (v : Vector Word 4) (n : Nat) : Word := v[n]?.getD 0

/-- The CFL record of a closed level (R459, R462). -/
def Core.cflRecord (c : Core) (level : Nat) : BitVec 256 :=
  let field := fun r => min (tabGet c.dbg.conflicts (0x1000 + r)) 0xFFFF
  let four := fun r => field r + 2 ^ 16 * field (r + 1) + 2 ^ 32 * field (r + 2) + 2 ^ 48 * field (r + 3)
  traceRecord (3 + 2 ^ 8 * level + 2 ^ 16 * ((loopReg c.csr.lpfin level).toNat % 2 ^ 16) +
    2 ^ 32 * (c.csr.cycle.toNat % 2 ^ 32)) (four 0) (four 4) (four 8)

/-- A level closes (R459, R462): where EN and CFLEN are set a snapshot is taken, whose CFL record is offered, and the sums
since the last snapshot start again. -/
def Core.closeLevel (c : Core) (level : Nat) : Core :=
  if !(wbit c.csr.tracectl 0 && wbit c.csr.tracectl 4) then c
  else
  let c := c.trace 4 (c.cflRecord level)
  { c with dbg := { c.dbg with conflicts := c.dbg.conflicts.filter (fun p => decide (p.1 < 0x1000)) } }

/-- The loop-end action of R173 at the innermost level. The return drops the bits of LPBEG outside [15:2] (DESIGN CHOICE,
log 98). -/
def Core.loopEnd (c : Core) : Core :=
  let n := c.csr.lpdep.toNat - 1
  let cnt := loopReg c.csr.lpcnt n - 1
  let c := { c with csr := { c.csr with lpcnt := c.csr.lpcnt.setIfInBounds n cnt } }
  if cnt ≠ 0 then { c with pc := pcOf (loopReg c.csr.lpbeg n) }
  else
    let c := c.closeLevel n
    { c with csr := { c.csr with lpdep := BitVec.ofNat 3 n } }

/-- The words of an instruction: its prefixes and the main word (R62). -/
def hdrWords (h : Hdr) : Nat := 1 + bit h.tok.isSome + bit h.limm.isSome

/-- The address of the main word of the instruction at the PC (R74). -/
def Core.mainAddr (c : Core) (h : Hdr) : Pc := c.pc + BitVec.ofNat 16 (4 * (hdrWords h - 1))

/-- The address after the instruction at the PC (R51). -/
def Core.nextPc (c : Core) (h : Hdr) : Pc := c.pc + BitVec.ofNat 16 (4 * hdrWords h)

/-- One of the words of the instruction at a PC lies at LPFIN of the innermost level (R173), of which all 32 bits are
compared (DESIGN CHOICE, log 98). -/
def Core.atLoopEnd (c : Core) (pc : Pc) (h : Hdr) : Bool :=
  c.csr.lpdep != 0 &&
  (List.range (hdrWords h)).any (fun k =>
    (pc + BitVec.ofNat 16 (4 * k)).toNat == (loopReg c.csr.lpfin (c.csr.lpdep.toNat - 1)).toNat)

/-- What every retirement counts: RETIRED, the issue cost on CYCLE (R144, R176), and for a user
instruction UCNT (R453) and a step under way (R451). The front end holds nothing any more. -/
def Core.count (c : Core) (cost : Nat) (user : Bool) : Core :=
  { c with
    held := none
    csr := { c.csr with retired := c.csr.retired + 1, cycle := c.csr.cycle + BitVec.ofNat 64 cost }
    dbg := if user then
        { c.dbg with ucnt := c.dbg.ucnt + 1
                     stepping := c.dbg.stepping.map (fun st => { st with retired := true }) }
      else c.dbg }

/-- The core runs user code: user mode, outside the supervisor code of page 15 (R390, R409, R453). -/
def Core.userCode (c : Core) : Bool := !c.csr.priv && decide (c.pc.toNat < 0xF000)

/-- Retire the instruction at the PC of c0 with the state c it leaves: go on behind it, or take the
loop-end action (R64, R173). -/
def Core.retireFrom (c0 : Core) (h : Hdr) (cost : Nat) (c : Core) : Core :=
  let c1 := { c with pc := c0.nextPc h }.count cost c0.userCode
  if c1.atLoopEnd c0.pc h then c1.loopEnd else c1

/-- The instruction transferred control: the PC is the target and no loop-end action applies (R173). -/
def Core.jumpFrom (c0 : Core) (cost : Nat) (t : Pc) (c : Core) : Core :=
  { c with pc := t }.count cost c0.userCode

/-- The pop test of a taken BR or JR (R174), from the innermost of the given number of levels. -/
def popDepth (lpbeg lpfin : Vector Word 4) (t : Pc) : Nat → Nat
  | 0 => 0
  | n + 1 =>
    if ((loopReg lpfin n).toNat + 2 ^ 32 - (loopReg lpbeg n).toNat) % 2 ^ 16 <
        (t.toNat + 2 ^ 32 - (loopReg lpbeg n).toNat) % 2 ^ 16 then popDepth lpbeg lpfin t n
    else n + 1

/-- Pop the levels that a taken BR or JR leaves (R174); one CFL record, for the outermost (R462). -/
def Core.popLevels (c : Core) (t : Pc) : Core :=
  let d := popDepth c.csr.lpbeg c.csr.lpfin t c.csr.lpdep.toNat
  if d < c.csr.lpdep.toNat then
    let c := c.closeLevel d
    { c with csr := { c.csr with lpdep := BitVec.ofNat 3 d } }
  else c

/-! ## Entering a trap and returning from one -/

/-- The TRAP record (R459). -/
def trapRecord (t : Trap) (c : Core) : BitVec 256 :=
  traceRecord (2 + 2 ^ 16 * (t.cause.toNat % 2 ^ 16) + 2 ^ 32 * t.epc.toNat) t.etval.toNat
    c.csr.cycle.toNat c.csr.phase.toNat

/-- Trap entry (R194): ESTATUS, CAUSE, EPC and ETVAL are written, the mode becomes supervisor and the PC
goes to EVEC. A held instruction is abandoned (R195); entry occupies the front end for 4 core cycles
(R176). -/
def Core.enterTrap (c : Core) (det : Bool) (t : Trap) : Core :=
  let c' := { c with
    pc := pcOf c.csr.evec
    held := none
    csr := { c.csr with
      estatus := c.status det
      priv := true
      cause := t.cause
      epc := t.epc.zeroExtend 32
      etval := t.etval
      cycle := c.csr.cycle + 4 } }
  c'.trace 3 (trapRecord t c)

/-- The mode and the PC that ERET restores (R199). A handler of PREEMPT that it leaves ends no part of the task (R391). -/
def Core.leaveTrap (c : Core) : Core :=
  { c with pc := pcOf c.csr.epc
           task := c.task.map (fun t => { t with preempting := false })
           csr := { c.csr with priv := decide (bits c.csr.estatus.toNat 0 0 = 1) } }

/-! ## Cores of the device -/

/-- The number of cores (00_scope, R45). -/
def coreCount : Nat := 1600

/-- Core p of the device. -/
def State.coreAt (s : State) (p : Nat) : Core :=
  if p = s.core.phys then s.core else (assocGet s.others p).getD (Core.reset p)

/-- Replace core p of the device. -/
def State.setCore (s : State) (p : Nat) (c : Core) : State :=
  if p = s.core.phys then { s with core := c } else { s with others := assocPut s.others p c }

/-- Make core p the one whose front end executes. -/
def State.select (s : State) (p : Nat) : State :=
  if p = s.core.phys then s
  else { s with core := s.coreAt p
                others := assocDel (assocPut s.others s.core.phys s.core) p }

/-- The outcome of a step. -/
abbrev Out := Host.Outcome State Fault Refusal

/-- An event of core p: nothing happens where it is not due. -/
def onCore (s : State) (p : Nat) (f : Core → State → Option State) : Out :=
  if coreCount ≤ p then .fault (.noSuchUnit "core" p)
  else .next ((f (s.coreAt p) s).getD s)

/-- An event of the device: nothing happens where it is not due. -/
def onDevice (s : State) (f : State → Option State) : Out := .next ((f s).getD s)

end Sys2Proof.Machine
end

