-- ==== Sys2Proof/Machine/Handles.lean ====
section
/-! DEFINITION. Tensor handles: their fields (R19), element addresses (R20, R114, R341), bytes in handle
order (R206), scales (R132) and the checks of R21. -/

namespace Sys2Proof.Machine

/-- Bits [hi:lo] of a handle. -/
def hf (h : HandleBits) (hi lo : Nat) : Nat := bits h.toNat hi lo

def hBase (h : HandleBits) : Nat := hf h 19 0
def hFmt (h : HandleBits) : Nat := hf h 23 20
def hD0 (h : HandleBits) : Nat := hf h 39 24
def hD1 (h : HandleBits) : Nat := hf h 55 40
def hD2 (h : HandleBits) : Nat := hf h 71 56
def hS1 (h : HandleBits) : Int := sx (hf h 91 72) 20
def hS2 (h : HandleBits) : Int := sx (hf h 111 92) 20
def hBlk (h : HandleBits) : Nat := hf h 114 112
def hSfmt (h : HandleBits) : Nat := hf h 116 115
def hSbase (h : HandleBits) : Nat := hf h 136 117
def hSstr (h : HandleBits) : Nat := hf h 152 137
def hSwch (h : HandleBits) : Nat := hf h 155 153
def hSwlo (h : HandleBits) : Nat := hf h 159 156
def hSww (h : HandleBits) : Nat := hf h 162 160
def hFem (h : HandleBits) : Nat := hf h 165 163
def hPois (h : HandleBits) : Bool := hf h 166 166 == 1
def hRo (h : HandleBits) : Bool := hf h 167 167 == 1

/-- The format a handle names; FP32 stands for code 15, which R21 refuses before any use. -/
def hFormat (h : HandleBits) : Fmt := (Fmt.ofCode (hFmt h)).getD .fp32

/-- The bit width of a handle's elements. -/
def hBits (h : HandleBits) : Nat := (hFormat h).width

/-- The number of elements (R20). -/
def hCount (h : HandleBits) : Nat := hD0 h * hD1 h * hD2 h

/-- The number of rows (R202). -/
def hRows (h : HandleBits) : Nat := hD1 h * hD2 h

/-- The bytes of one row (R206). -/
def hRowBytes (h : HandleBits) : Nat := hD0 h * hBits h / 8

/-- The byte count (R206). -/
def hBytes (h : HandleBits) : Nat := hCount h * hBits h / 8

/-- The handle describes no elements (R20). -/
def hEmpty (h : HandleBits) : Bool := hCount h == 0

/-- The scale format of a handle (R19). -/
def hScaleFormat (h : HandleBits) : Fmt :=
  match hSfmt h with
  | 0 => .e8f2 | 1 => .bf16 | _ => .fp32

/-- The scale size in bytes (R132). -/
def hScaleBytes (h : HandleBits) : Nat := if hSfmt h = 2 then 4 else 2

/-- The block length along dimension 0 (R132); 0 where the handle has no scales. -/
def hBlock (h : HandleBits) : Nat := if hBlk h = 0 then 0 else 16 * 2 ^ (hBlk h - 1)

/-- The address of the byte at offset o of row r (R20, R341): the offset is swizzled where SWCH is on. -/
def hRowAddr (h : HandleBits) (r o : Nat) : Nat :=
  let i1 := r % hD1 h
  let i2 := r / hD1 h
  let o' := if hSwch h = 0 then o
    else Nat.xor o (r / 2 ^ hSwlo h % 2 ^ hSww h * (16 * 2 ^ (hSwch h - 1)))
  ((hBase h + o' + i1 * hS1 h + i2 * hS2 h) % (2 ^ 20 : Int)).toNat

/-- The address of byte k of a handle in handle byte order (R206, R341). -/
def hByteAddr (h : HandleBits) (k : Nat) : Nat := hRowAddr h (k / hRowBytes h) (k % hRowBytes h)

/-- Where element n lies: the address of its first byte and its first bit in it (R20, R114). -/
def hElem (h : HandleBits) (n : Nat) : Nat × Nat :=
  let b := n % hD0 h * hBits h
  (hRowAddr h (n / hD0 h) (b / 8), b % 8)

/-- How many bytes hold any bit of element n (R114). -/
def hElemBytes (h : HandleBits) (n : Nat) : Nat := ((hElem h n).2 + hBits h + 7) / 8

/-- The address of byte j of element n. A 6-bit element in two bytes has the offset of each swizzled, so that
every engine meets the same bytes (R341; DEDUCED, log 83). -/
def hElemByte (h : HandleBits) (n j : Nat) : Nat := hRowAddr h (n / hD0 h) (n % hD0 h * hBits h / 8 + j)

/-- The addresses of the bytes of element n, in order. -/
def hElemAddrs (h : HandleBits) (n : Nat) : List Nat := (List.range (hElemBytes h n)).map (hElemByte h n)

/-- The address of the last byte of element n. -/
def hElemLast (h : HandleBits) (n : Nat) : Nat := hElemByte h n (hElemBytes h n - 1)

/-- The address of the scale of element n (R132). R132 reduces no sum that reaches 2^20, which R20 does for
elements: it is reduced modulo 2^20 here too (DESIGN CHOICE, log 84). -/
def hScaleAddr (h : HandleBits) (n : Nat) : Nat :=
  (hSbase h + n / hD0 h * hSstr h + n % hD0 h / hBlock h * hScaleBytes h) % 2 ^ 20

/-- The little-endian number in the bytes at a list of addresses. -/
def readAt (m : Mem) : List Nat → Nat
  | [] => 0
  | a :: t => (memRead m a).toNat + 256 * readAt m t

/-- Write a little-endian number into the bytes at a list of addresses. -/
def writeAt (m : Mem) : List Nat → Nat → Mem
  | [], _ => m
  | a :: t, v => writeAt (memWrite m a (BitVec.ofNat 8 v)) t (v / 256)

/-- The pattern of element n (R114). -/
def readElem (m : Mem) (h : HandleBits) (n : Nat) : Nat :=
  readAt m (hElemAddrs h n) / 2 ^ (hElem h n).2 % 2 ^ hBits h

/-- Write the pattern of element n; the other bits of its bytes stay (R114). -/
def writeElem (m : Mem) (h : HandleBits) (n v : Nat) : Mem :=
  let b := (hElem h n).2
  let old := readAt m (hElemAddrs h n)
  let field := old / 2 ^ b % 2 ^ hBits h
  writeAt m (hElemAddrs h n) (old - field * 2 ^ b + v % 2 ^ hBits h * 2 ^ b)

/-- The linear index in h of the element that stands for element n of d where extents of 1 repeat (R206,
R208). -/
def hBroadcast (h d : HandleBits) (n : Nat) : Nat :=
  let i0 := if hD0 h = 1 then 0 else n % hD0 d
  let r := n / hD0 d
  let i1 := if hD1 h = 1 then 0 else r % hD1 d
  let i2 := if hD2 h = 1 then 0 else r / hD1 d
  i0 + hD0 h * (i1 + hD1 h * i2)

/-! ## The checks of R21 -/

/-- Case 1: an illegal field code, or reserved bits that are not zero. -/
def hIllegal (h : HandleBits) : Bool :=
  hFmt h == 15 || 5 ≤ hBlk h || hSfmt h == 3 || 3 ≤ hFem h || hf h 191 168 != 0

/-- Case 3: the misaligned BASE or SBASE, if any. -/
def hMisaligned (h : HandleBits) : Option Nat :=
  if hBase h % max 1 (hBits h / 8) ≠ 0 then some (hBase h)
  else if hBlk h ≠ 0 ∧ hSbase h % hScaleBytes h ≠ 0 then some (hSbase h)
  else none

/-- Case 4: elements that do not fill whole bytes. -/
def hUnpacked (h : HandleBits) : Bool :=
  (hBits h == 6 && hD0 h % 4 != 0) || (hBits h == 4 && hD0 h % 2 != 0)

/-- A handle an instruction names, and whether it is a destination. -/
structure HandleUse where
  h : HandleBits
  dest : Bool
deriving DecidableEq, Repr

/-- The trap of R21 that an instruction's handles raise: the lowest case that any of them fails, at the
first handle that fails it. main is the main word. -/
def handleTrap (c : Core) (main : Word) (us : List HandleUse) : Option Trap :=
  if us.any (fun u => hIllegal u.h) || us.any (fun u => u.dest && hRo u.h) then
    some (c.precise 0x01 6 main)
  else
    match us.findSome? (fun u => hMisaligned u.h) with
    | some a => some (c.precise 0x09 2 (BitVec.ofNat 32 a))
    | none =>
      match us.find? (fun u => hUnpacked u.h) with
      | some u => some (c.precise 0x09 3 (BitVec.ofNat 32 (hD0 u.h)))
      | none => none

/-! ## What a queued instruction writes -/

/-- The destination handle of a queued V, M or L instruction that writes local memory through a handle. -/
def entryDest (e : Entry) : Option HandleBits :=
  match e.instr with
  | .vrsumQ .. | .vrmaxQ .. | .vrminQ .. => none
  | .mcfg .. | .mwl .. | .mws .. | .mms .. | .mmsz .. | .msclC .. | .msclR .. | .msclK .. => none
  | .mza .. | .mwr .. | .mdrn .. | .mstat .. => none
  | _ => e.handles.head?

/-- Whether a handle's elements touch a granule of 16 bytes. -/
def hTouchesGranule (h : HandleBits) (g : Nat) : Bool :=
  (List.range (hCount h)).any (fun n => (hElemAddrs h n).any (fun a => a / 16 == g))

/-- Whether the scales beside a handle's elements touch a granule. -/
def hScalesTouchGranule (h : HandleBits) (g : Nat) : Bool :=
  hBlk h != 0 && (List.range (hCount h)).any (fun n =>
    let a := hScaleAddr h n
    decide (a / 16 ≤ g ∧ g ≤ (a + hScaleBytes h - 1) / 16))

/-- A queued or running instruction writes a granule of the scratchpad (R31): through its destination
handle, and VQNT through its scales. -/
def entryWritesGranule (e : Entry) (g : Nat) : Bool :=
  match entryDest e with
  | none => false
  | some h =>
    hTouchesGranule h g ||
    (match e.instr with
     | .vqnt .. => hScalesTouchGranule h g
     | _ => false)

/-- The engines among V, M and L with a queued or running instruction that writes a granule (R31). -/
def Core.writers (c : Core) (g : Nat) : List Eng :=
  [Eng.V, Eng.M, Eng.L].filter (fun e => (c.eng e).queue.any (fun x => entryWritesGranule x g))

/-- The queue that an instruction targets (R182). -/
def entryQueue (e : Entry) : Option Nat :=
  match e.instr with
  | .vrsumQ _ n _ | .vrmaxQ _ n _ | .vrminQ _ n _ => some n.toNat
  | .mstat _ n => some n.toNat
  | _ => none


end Sys2Proof.Machine
end

