-- ==== Sys2Proof/Machine/Flags.lean ====
section
/-! DEFINITION. The sticky flags and how they are set: FPCTL.XF (R128, R129), VSTAT (R215, R287), and the
comparison outcomes of CMP, CMPI and FCMP (R146, R156, R158). -/

namespace Sys2Proof.Machine

/-- Set sticky bits of a CSR word. -/
def orWord (x : Word) (m : Nat) : Word := x ||| BitVec.ofNat 32 m

/-- Set FPCTL.XF for the conditions of a rounding (R128, R129). -/
def Core.setXf (c : Core) (flags : Nat) : Core :=
  { c with csr := { c.csr with fpctl := orWord c.csr.fpctl (flags * 2 ^ 16) } }

/-- Set sticky bits of VSTAT. -/
def Core.setVstat (c : Core) (m : Nat) : Core :=
  { c with csr := { c.csr with vstat := orWord c.csr.vstat m } }

/-- Set sticky bits of MSTAT. -/
def Core.setMstat (c : Core) (m : Nat) : Core :=
  { c with csr := { c.csr with mstat := orWord c.csr.mstat m } }

/-- The conditions of integer comparison (R146). -/
inductive Cond where
  | eq | ne | lt | le | ltu | leu
deriving DecidableEq, Repr

/-- A comparison of two values of n bits (R146). -/
def Cond.holds (cc : Cond) (n x y : Nat) : Bool :=
  match cc with
  | .eq => x == y
  | .ne => x != y
  | .lt => decide (sx x n < sx y n)
  | .le => decide (sx x n ≤ sx y n)
  | .ltu => decide (x < y)
  | .leu => decide (x ≤ y)

/-- The conditions of FCMP (R156). -/
inductive FCond where
  | eq | lt | le | un
deriving DecidableEq, Repr

/-- The IEEE comparison of two FP32 codes (R156). -/
def FCond.holds (cc : FCond) (x y : Nat) : Bool :=
  let a := Fmt.fp32.value x
  let b := Fmt.fp32.value y
  match cc with
  | .eq => a.eqv b
  | .lt => a.lt b
  | .le => a.lt b || a.eqv b
  | .un => a.isNan || b.isNan

end Sys2Proof.Machine
end

