-- ==== Sys2Proof/Machine/StepCount.lean ====
section
/-! DEFINITION. What the cells of the vector engine compute, as kinds, and the number of steps of every
engine instruction (R42, R202, R224, R235, R250, R271). -/

namespace Sys2Proof.Machine

/-- The floating cells of R216. -/
inductive FOp where
  | add | sub | mul | fma | min | max | abs | neg
deriving DecidableEq, Repr

/-- The cells of R217. -/
inductive TOp where
  | rcp | rsq | exp2 | log2 | sin | cos | tanh | sigm
deriving DecidableEq, Repr

/-- The integer cells of R219. -/
inductive IOp where
  | add | sub | mul | and | or | xor | shl | shr | sra | clz | popc
deriving DecidableEq, Repr

/-- The conditions of VCMP (R221). -/
inductive VCond where
  | eq | ne | lt | le
deriving DecidableEq, Repr

/-- The reductions of R231. -/
inductive ROp where
  | sum | max | min
deriving DecidableEq, Repr

/-- What a vector cell does (R93). -/
inductive VKind where
  | arith (f : FOp)
  | trans (f : TOp)
  | int (f : IOp)
  | bilv (three : Bool)
  | cmp (k : VCond)
  | sel (masked : Bool)
  | cvt (sat : Bool)
  | qnt
  | dqt
  | permb
  | shuf
  | bcast
  | mov
  | red (f : ROp) (q : Option Nat)
  | scan (excl : Bool)
  | gath
  | scat
  | rng
  | drop
  | norm
  | smax
deriving DecidableEq, Repr

/-- The kind of a vector instruction. -/
def vKind (i : Instr) : Option VKind :=
  match i with
  | .vadd .. => some (.arith .add)
  | .vsub .. => some (.arith .sub)
  | .vmul .. => some (.arith .mul)
  | .vfma .. => some (.arith .fma)
  | .vmin .. => some (.arith .min)
  | .vmax .. => some (.arith .max)
  | .vabs .. => some (.arith .abs)
  | .vneg .. => some (.arith .neg)
  | .vrcp .. => some (.trans .rcp)
  | .vrsq .. => some (.trans .rsq)
  | .vexp2 .. => some (.trans .exp2)
  | .vlog2 .. => some (.trans .log2)
  | .vsin .. => some (.trans .sin)
  | .vcos .. => some (.trans .cos)
  | .vtanh .. => some (.trans .tanh)
  | .vsigm .. => some (.trans .sigm)
  | .viadd .. => some (.int .add)
  | .visub .. => some (.int .sub)
  | .vimul .. => some (.int .mul)
  | .vand .. => some (.int .and)
  | .vor .. => some (.int .or)
  | .vxor .. => some (.int .xor)
  | .vshl .. => some (.int .shl)
  | .vshr .. => some (.int .shr)
  | .vsra .. => some (.int .sra)
  | .vclz .. => some (.int .clz)
  | .vpopc .. => some (.int .popc)
  | .vbilv _ _ _ _ m => some (.bilv (m == 1))
  | .vcmpEq .. => some (.cmp .eq)
  | .vcmpNe .. => some (.cmp .ne)
  | .vcmpLt .. => some (.cmp .lt)
  | .vcmpLe .. => some (.cmp .le)
  | .vmsel .. => some (.sel false)
  | .vmselM .. => some (.sel true)
  | .vcvt _ _ _ _ m => some (.cvt (m == 1))
  | .vqnt .. => some .qnt
  | .vdqt .. => some .dqt
  | .vpermb .. => some .permb
  | .vshuf .. => some .shuf
  | .vbcast .. => some .bcast
  | .vmov .. => some .mov
  | .vrsum .. => some (.red .sum none)
  | .vrsumQ _ n _ => some (.red .sum (some n.toNat))
  | .vrmax .. => some (.red .max none)
  | .vrmaxQ _ n _ => some (.red .max (some n.toNat))
  | .vrmin .. => some (.red .min none)
  | .vrminQ _ n _ => some (.red .min (some n.toNat))
  | .vscan _ _ _ m => some (.scan (m == 1))
  | .vgath .. => some .gath
  | .vscat .. => some .scat
  | .vrng .. => some .rng
  | .vdrop .. => some .drop
  | .vnorm .. => some .norm
  | .vsmax .. => some .smax
  | _ => none

/-- The cells that work row by row (R202). -/
def VKind.isRow : VKind → Bool
  | .red .. | .scan _ | .norm | .smax => true
  | _ => false

/-- Handle k of an entry. -/
def Entry.h (x : Entry) (k : Nat) : HandleBits := x.handles.getD k 0

/-- Some handle that an instruction names describes no elements (R21). -/
def Entry.noElements (x : Entry) : Bool := x.handles.any hEmpty

/-- The lane group E (R202). -/
def laneGroup (hs : List HandleBits) : Nat :=
  let w := hs.foldl (fun m h => max m (hBits h)) 0
  if w = 32 then 64 else if w = 16 then 128 else 256

/-- The handle whose rows a row instruction reduces (R202): ha. -/
def rowSource (k : VKind) (x : Entry) : HandleBits :=
  match k with
  | .red _ (some _) => x.h 0
  | _ => x.h 1

/-- The steps of one row of a row instruction (R202). -/
def rowSteps (k : VKind) (x : Entry) : Nat := ceilDiv (hD0 (rowSource k x)) (laneGroup x.handles)

/-- The whole blocks that a step of VQNT covers (R224). -/
def quantBlocks (x : Entry) : Nat := max 1 (laneGroup x.handles / hBlock (x.h 0))

/-- The steps of one row of VQNT (R224). -/
def quantRowSteps (x : Entry) : Nat :=
  ceilDiv (ceilDiv (hD0 (x.h 0)) (hBlock (x.h 0))) (quantBlocks x)

/-- The steps of a vector instruction with elements (R202, R224, R235). -/
def vSteps (k : VKind) (x : Entry) : Nat :=
  match k with
  | .qnt => quantRowSteps x * hRows (x.h 0)
  | .permb => ceilDiv (hBytes (x.h 0)) 256
  | .scat => ceilDiv (hCount (x.h 1)) (laneGroup x.handles)
  | .red .. | .scan _ | .norm | .smax => rowSteps k x * hRows (rowSource k x)
  | _ => ceilDiv (hCount (x.h 0)) (laneGroup x.handles)

/-- The steps of a matrix instruction (R250), with the number of its handle's rows. -/
def mSteps (x : Entry) : Nat :=
  match x.instr with
  | .mwl .. => 8
  | .mms .. | .mmsz .. | .msclC .. | .mrd .. | .mwr .. => ceilDiv (hD1 (x.h 0)) 8
  | .msclR .. => ceilDiv (hD0 (x.h 0)) 8
  | .mza _ _ n => 8 * (n.toNat + 1)
  | _ => 1

/-- The number of steps of an instruction (R42); one whose handles describe no elements has none, but for
MSCL.K (R21, R250). The steps of a transfer are its pieces (R276). -/
def entrySteps (x : Entry) : Nat :=
  match x.instr with
  | .msclK .. => 1
  | _ =>
    if x.noElements then 0
    else match vKind x.instr with
      | some k => vSteps k x
      | none =>
        match x.instr with
        | .xcpy .. | .xtrn .. | .xfill .. => ceilDiv (hBytes (x.h 0)) 512
        | .xput .. | .xget .. | .xld .. | .xst .. | .xldg .. | .xbc .. | .xdec .. | .xrdev .. | .xpf .. =>
          ceilDiv (x.scalars.getD 2 0) 512
        | .xgth .. | .xenc .. => x.scalars.getD 2 0 * ceilDiv (hRowBytes (x.h 0)) 512
        | _ => mSteps x

end Sys2Proof.Machine
end

