-- ==== Sys2Proof/Machine/Steps.lean ====
section
/-! DEFINITION. What a queued instruction targets; completion of an engine's instruction (R38), freezing and release (R196, R199), and the
accumulator banks an instruction targets (R186, R246). -/

namespace Sys2Proof.Machine

/-- A byte lies in accumulator bank n. -/
def inBank (n a : Nat) : Bool := inAcc a && bankOf a == n

/-- Some byte that a handle describes lies in accumulator bank n: a byte of an element, or of a scale where BLK is
not 0 (R132; DEDUCED, log 82). -/
def hTouchesBank (h : HandleBits) (n : Nat) : Bool :=
  (List.range (hCount h)).any (fun k =>
    (hElemAddrs h k).any (inBank n) ||
    (hBlk h != 0 && (List.range (hScaleBytes h)).any (fun j => inBank n (hScaleAddr h k + j))))

/-- A queued or running V or M instruction targets accumulator bank n (R186, R246). -/
def entryTargetsBank (e : Entry) (n : Nat) : Bool :=
  e.handles.any (fun h => hTouchesBank h n) ||
  (match e.instr, e.handles.head?, e.scalars.head? with
   | .mms _ _ k _ _, some h, x =>
     decide (hD1 h ≠ 0 ∧ k.toNat * 64 + x.getD 0 % 256 < 64 * (n + 1) ∧
             64 * n < k.toNat * 64 + x.getD 0 % 256 + hD1 h)
   | .mmsz _ _ k _ _, some h, x =>
     decide (hD1 h ≠ 0 ∧ k.toNat * 64 + x.getD 0 % 256 < 64 * (n + 1) ∧
             64 * n < k.toNat * 64 + x.getD 0 % 256 + hD1 h)
   | .msclC _ _ k, some h, _ => decide (k.toNat ≤ n ∧ 64 * n < k.toNat * 64 + hD1 h)
   | .msclR _ _ k, some h, _ => decide (k.toNat ≤ n ∧ 64 * n < k.toNat * 64 + hD0 h)
   | .mrd _ _ k _ _, some h, _ => decide (k.toNat ≤ n ∧ 64 * n < k.toNat * 64 + hD1 h)
   | .mwr _ _ k _, some h, _ => decide (k.toNat ≤ n ∧ 64 * n < k.toNat * 64 + hD1 h)
   | .mza _ k j, _, _ => decide (k.toNat ≤ n ∧ n ≤ k.toNat + j.toNat)
   | _, _, _ => false)

/-- Some queued or running instruction targets queue n (R182). An instruction at the head of V whose last push has
entered its queue (R232) targets none, though its engine may hold it frozen (R213). -/
def Core.queueTargeted (c : Core) (n : Nat) : Bool :=
  (c.engV.queue.head?).any (fun x => entryQueue x == some n && !c.vpushed) ||
  (c.engV.queue.drop 1 ++ c.engM.queue).any (fun x => entryQueue x == some n)

/-- Some queued or running instruction of an engine targets bank n (R27, R186). -/
def Core.targetsBank (c : Core) (e : Eng) (n : Nat) : Bool :=
  (c.eng e).queue.any (fun x => entryTargetsBank x n)

/-- The leading instructions that have finished leave the E queue, and DONE counts them (R38, R277). -/
def drainFinished (g : Engine) : List Entry → Engine
  | [] => { g with queue := [] }
  | x :: t =>
    if x.stage = .finished then drainFinished { g with done := g.done + 1 } t
    else { g with queue := x :: t }

/-- The first instruction that has not begun is marked finished. -/
def finishFirst : List Entry → List Entry
  | [] => []
  | x :: t => if x.stage = .queued then { x with stage := .finished } :: t else x :: finishFirst t

/-- The stop of a STEP command is due: its instruction has retired, and the core stands at an instruction boundary
(R451). -/
def Core.stopDue (c : Core) : Bool :=
  match c.dbg.stepping with
  | some st =>
    st.host && !st.deep && st.retired && (c.pst == .compute || c.pst == .exchange || c.pst == .straggler)
  | none => false

/-- The engines of a core hold before their next step (R447, R451). -/
def Core.enginesHold (c : Core) : Bool := c.halted || c.stopDue

/-! ## Identifiers -/

/-- The channel of a transfer instruction (R275). -/
def xferChan (i : Instr) : Option Nat :=
  match i with
  | .xput _ _ _ c _ | .xget _ _ _ c _ | .xpf _ _ c | .xld _ _ _ c _ | .xst _ _ _ c _ | .xldg _ _ _ c _
  | .xbc _ _ _ c _ | .xatmGrp _ _ _ _ c _ | .xatmGang _ _ _ _ c _ | .xatmDev _ _ _ _ c _
  | .xatmSys _ _ _ _ c _ | .xgth _ _ _ _ c | .xenc _ _ _ c _ | .xdec _ _ _ c | .xovl _ _ c | .xsig _ _ c _
  | .xlaunch _ _ _ c | .xrdev _ _ _ c _ => some c.toNat
  | _ => none

/-- The identifiers of the outstanding transfers of a channel (R278). -/
def Core.outstanding (c : Core) (ch : Nat) : List Word :=
  (c.engE.queue.filter (fun x => x.stage != .finished && xferChan x.instr == some ch)).map (·.xid)

/-- The device advances XDONE of a channel where it is behind (R502). -/
def Core.advanceDone (c : Core) (ch : Nat) : Core :=
  let next := vec4 c.csr.xnext ch
  let now := vec4 c.csr.xdone ch
  let gap := (next - now).toNat
  if gap = 0 ∨ 2 ^ 31 ≤ gap then c
  else
    let d := (c.outstanding ch).foldl (fun m id => min m (id - now).toNat) gap
    { c with csr := { c.csr with xdone := c.csr.xdone.setIfInBounds ch (now + BitVec.ofNat 32 d) } }

/-- The device advances XDONE of every channel (R502). -/
def Core.advanceAll (c : Core) : Core :=
  (((c.advanceDone 0).advanceDone 1).advanceDone 2).advanceDone 3

/-! ## Completion -/

/-- The kinds of matrix instructions (R247). -/
inductive MatrixKind where
  | stream | plane | swap | serial
deriving DecidableEq, Repr

/-- The kind of a matrix instruction (R247). -/
def matrixKind (i : Instr) : MatrixKind :=
  match i with
  | .mms .. | .mmsz .. | .msclC .. | .msclR .. | .mza .. | .mrd .. | .mwr .. => .stream
  | .mwl .. | .msclK .. => .plane
  | .mws .. => .swap
  | _ => .serial

/-- The instructions whose work has ended complete with the one before them (R248), but for one that met poison,
which sets PSN or reports first (R267): what is left of the queue and of the progress behind its head, how many
completed, and what the new head has done. -/
def drainAhead : List Entry → List Ahead → Nat → List Entry × List Ahead × Nat × Option Ahead
  | x :: q, a :: t, n =>
    if a.ended && a.met.isNone && a.mark.isNone then drainAhead q t (n + 1) else (x :: q, t, n, some a)
  | q, _, n => (q, [], n, none)

/-- The head of M completes, with those behind it that R248 completes in the same cycle. -/
def Core.completeMatrix (c : Core) (g : Engine) : Core :=
  let r := drainAhead (g.queue.drop 1) c.matrix.ahead 1
  { c with
    engM := { g with queue := r.1, done := g.done + BitVec.ofNat 32 r.2.2.1
                     mpc := BitVec.ofNat 32 ((r.2.2.2.map (·.steps)).getD 0) }
    matrix := { c.matrix with ahead := r.2.1, met := r.2.2.2.bind (·.met), mark := r.2.2.2.bind (·.mark) } }

/-- A fault at the head of M stops the plane instructions that run behind it, and discards their progress (R266). -/
def stopAhead : List Entry → List Ahead → List Ahead
  | x :: q, a :: t =>
    (if matrixKind x.instr = .plane ∧ a.ended = false then { steps := 0, ended := false, stopped := true, met := none, mark := none }
     else a) :: stopAhead q t
  | _, _ => []

/-- Complete(e) for the instruction at the head of V, M or L, or the one that E is to begin next (R38): it
leaves the queue and produces its token, in issue order. -/
def Core.complete (c : Core) (e : Eng) : Core :=
  let g := c.eng e
  let g := { g with mpc := 0, frozen := false, report := none, pushing := none }
  match e with
  | .E => (c.setEng .E (drainFinished g (finishFirst g.queue))).advanceAll
  | .V => { c with engV := { g with queue := g.queue.drop 1, done := g.done + 1 }, vmet := none, vrows := [], vpushed := false }
  | .M => c.completeMatrix g
  | .L => { c with engL := { g with queue := g.queue.drop 1, done := g.done + 1 }, lmet := none }

/-- An engine freezes with a report (R196); M stops what runs behind its head (R266). -/
def Core.freeze (c : Core) (e : Eng) (code sub : Nat) (etval : Word) : Core :=
  let c := c.setEng e { c.eng e with frozen := true, report := some { code := code, sub := sub, etval := etval } }
  match e with
  | .M => { c with matrix := { c.matrix with ahead := stopAhead (c.engM.queue.drop 1) c.matrix.ahead } }
  | _ => c

/-- The instruction that an engine runs or is to begin next (R196, R276). -/
def Core.current (c : Core) (e : Eng) : Option Entry :=
  (c.eng e).queue.find? (fun x => x.stage == .queued)

/-- Recapture ACCOWN in the instruction an engine resumes (R187). -/
def recapture (a : BitVec 8) : List Entry → List Entry
  | [] => []
  | x :: t => if x.stage = .queued then { x with accown := a } :: t else x :: recapture a t

/-- ERET for one engine (R199): a frozen engine whose report has been taken completes its instruction where
MPC has reached its step count, else recaptures ACCOWN and goes on at MPC. An engine whose report is still
pending stays frozen (R197). -/
def Core.release (c : Core) (e : Eng) : Core :=
  let g := c.eng e
  if !g.frozen || g.report.isSome then c
  else
    match c.current e with
    | none => c.setEng e { g with frozen := false }
    | some x =>
      if entrySteps x ≤ g.mpc.toNat then c.complete e
      else
        let c := c.setEng e { g with frozen := false, queue := recapture c.csr.accown g.queue }
        if e = .V then { c with vpushed := false } else c

end Sys2Proof.Machine
end

