-- ==== Sys2Proof/Machine/Csr.lean ====
section
/-! DEFINITION. Control and status registers: what a read gives (R45 to R49), who may write (R43, R44,
R46, R189), what a write does (R27, R33, R188, R190). -/

namespace Sys2Proof.Machine

/-- MSTAT as software reads it (R269): the sticky flags with HALF, GW, MEM, APS and SPS. APS, which has no code for it, reads 0 for
an active plane that is LOADING (DESIGN CHOICE, log 117). -/
def Core.mstatWord (c : Core) : Word :=
  let m := c.matrix
  let half := bit (m.alarm || m.span != 0)
  let aps := if m.active.state = .loaded then 1 else 0
  let sps := match m.shadow.state with
    | .empty => 0 | .loading => 1 | .loaded => 2
  BitVec.ofNat 32 (half + 2 * bits c.csr.mstat.toNat 7 1 + 2 ^ 8 * m.gw.toNat + 2 ^ 10 * m.mem.toNat +
    2 ^ 13 * aps + 2 ^ 15 * sps)

/-- QLVL (R45). -/
def Core.qlvl (c : Core) : Word :=
  BitVec.ofNat 32 ((c.queue 0).length + 2 ^ 5 * (c.queue 1).length + 2 ^ 10 * (c.queue 2).length +
    2 ^ 15 * (c.queue 3).length)

/-- CFLDATA (R461): requesters 12 to 15 read as 0. -/
def Core.cflData (c : Core) : Word :=
  let req := bits c.csr.cflsel.toNat 9 6
  if 12 ≤ req then 0
  else BitVec.ofNat 32 (tabGet c.dbg.conflicts (conflictKey req (bits c.csr.cflsel.toNat 5 0)))

/-- Half of a 64-bit CSR: 0 the low word, 1 the high one (R45). -/
def half64 (x : BitVec 64) (i : Nat) : Word := BitVec.ofNat 32 (x.toNat / 2 ^ (32 * i))

/-- CSR i of core c; an index that R45 does not list reads 0 (R349). -/
def csrRead (det : Bool) (time : BitVec 64) (c : Core) (i : Nat) : Word :=
  match i with
  | 0x000 => c.status det
  | 0x001 => c.csr.cause
  | 0x002 => c.csr.epc
  | 0x003 => c.csr.etval
  | 0x004 => c.csr.evec
  | 0x005 => c.csr.estatus
  | 0x010 => half64 c.csr.phase 0
  | 0x011 => half64 c.csr.phase 1
  | 0x012 => c.csr.coreL.zeroExtend 32
  | 0x013 => BitVec.ofNat 32 c.phys
  | 0x014 => c.csr.gang.zeroExtend 32
  | 0x015 => c.csr.group.zeroExtend 32
  | 0x016 => c.csr.asid.zeroExtend 32
  | 0x017 => c.csr.task
  | 0x020 => c.engV.iss
  | 0x021 => c.engM.iss
  | 0x022 => c.engL.iss
  | 0x023 => c.engE.iss
  | 0x024 => c.engV.done
  | 0x025 => c.engM.done
  | 0x026 => c.engL.done
  | 0x027 => c.engE.done
  | 0x030 => c.engV.mpc
  | 0x031 => c.engM.mpc
  | 0x032 => c.engL.mpc
  | 0x033 => c.engE.mpc
  | 0x040 | 0x041 | 0x042 | 0x043 => vec4 c.csr.xnext (i - 0x040)
  | 0x044 | 0x045 | 0x046 | 0x047 => vec4 c.csr.xdone (i - 0x044)
  | 0x048 | 0x049 | 0x04A | 0x04B | 0x04C | 0x04D | 0x04E | 0x04F =>
    (c.csr.land[i - 0x048]?.getD 0).zeroExtend 32
  | 0x050 => c.csr.accown.zeroExtend 32
  | 0x051 => c.mstatWord
  | 0x052 => c.csr.vstat
  | 0x053 => c.csr.fpctl
  | 0x054 => c.csr.seedlo
  | 0x055 => c.csr.seedhi
  | 0x060 => c.csr.sigmap
  | 0x061 => c.csr.pwin.zeroExtend 32
  | 0x070 => half64 c.csr.retired 0
  | 0x071 => half64 c.csr.retired 1
  | 0x072 => half64 c.csr.cycle 0
  | 0x073 => half64 c.csr.cycle 1
  | 0x074 => half64 time 0
  | 0x075 => half64 time 1
  | 0x080 => c.csr.cflsel
  | 0x081 => c.cflData
  | 0x0C0 => c.csr.dbgctl
  | 0x0C1 => c.csr.dbgstat
  | 0x0C2 => c.csr.tracectl
  | 0x0C3 => c.csr.tracebase
  | 0x0F0 => c.csr.eallow
  | 0x100 | 0x101 | 0x102 | 0x103 => vec4 c.csr.lpbeg (i - 0x100)
  | 0x104 | 0x105 | 0x106 | 0x107 => vec4 c.csr.lpfin (i - 0x104)
  | 0x108 | 0x109 | 0x10A | 0x10B => vec4 c.csr.lpcnt (i - 0x108)
  | 0x10C => c.csr.lpdep.zeroExtend 32
  | 0x110 => c.qlvl
  | _ => 0

/-- A write cell's operation (R188). -/
inductive CsrOp where
  | write | set | clear
deriving DecidableEq, Repr

/-- The new value of plain bits (R188). -/
def CsrOp.apply (op : CsrOp) (old v : Word) : Word :=
  match op with
  | .write => v
  | .set => old ||| v
  | .clear => old &&& ~~~v

/-- The RW bits of a CSR, those that R188 lets a write change (R45, R49, R129, R449, R458). -/
def csrRwMask (i : Nat) : Nat :=
  if i = 0x001 ∨ i = 0x005 then 0xFFFF
  else if i = 0x004 then 0xFFFC
  else if i = 0x050 then 0xFF
  else if i = 0x053 then 0x1F7
  else if i = 0x060 then 0xFFFFFF
  else if 0x048 ≤ i ∧ i ≤ 0x04F then 0xFFFFFF
  else if i = 0x080 then 0x3FF
  else if i = 0x0C0 then 0xF
  else if i = 0x0C2 then 0xF3D
  else if i = 0x10C then 7
  else if i = 0x000 ∨ i = 0x051 ∨ i = 0x052 then 0
  else 0xFFFFFFFF

/-- The W1C bits of a CSR (R48, R129, R215, R269, R287, R458). -/
def csrW1cMask (i : Nat) : Nat :=
  if i = 0x000 then 0x4
  else if i = 0x051 then 0xFE
  else if i = 0x052 then 0x1F0F
  else if i = 0x053 then 0x1F0000
  else if i = 0x0C2 then 0x2
  else 0

/-- User mode may write a CSR (R45). -/
def csrUserWritable (i : Nat) : Bool :=
  i == 0x000 || (0x051 ≤ i && i ≤ 0x055) || i == 0x080 || i == 0x0C0 || i == 0x0C2 || i == 0x0C3

/-- Some mode may write a CSR (R45, R189). -/
def csrWritable (i : Nat) : Bool :=
  csrUserWritable i || (0x001 ≤ i && i ≤ 0x005) || (0x020 ≤ i && i ≤ 0x050 && csrListed i) ||
  i == 0x060 || i == 0x061 || (0x100 ≤ i && i ≤ 0x10C)

/-- A debug or trace CSR (R46). -/
def csrIsDebug (i : Nat) : Bool := i == 0x0C0 || i == 0x0C2 || i == 0x0C3

/-- The privilege trap of an access (R43, R44, R46, R189), with the index in ETVAL. debug says whether the
context permits debug. -/
def csrPriv (debug : Bool) (c : Core) (wr : Bool) (i : Nat) : Option Trap :=
  if c.csr.priv then
    if wr && i == 0x004 && !c.csr.supok then some (c.precise 0x02 2 (BitVec.ofNat 32 i)) else none
  else if 0x100 ≤ i || (wr && !csrUserWritable i) then some (c.precise 0x02 0 (BitVec.ofNat 32 i))
  else if wr && csrIsDebug i && !debug then some (c.precise 0x02 3 (BitVec.ofNat 32 i))
  else none

/-- The engine whose counters a CSR is (R190). -/
def csrEngine (i : Nat) : Option Eng :=
  if (0x020 ≤ i ∧ i ≤ 0x027) ∨ (0x030 ≤ i ∧ i ≤ 0x033) then some (engOfCode (i % 4))
  else if 0x040 ≤ i ∧ i ≤ 0x047 then some .E
  else none

/-- A counter write holds the front end: its engine is neither frozen nor without instructions (R190). -/
def csrHolds (c : Core) (i : Nat) : Option Eng :=
  match csrEngine i with
  | none => none
  | some e => if (c.eng e).frozen || (c.eng e).queue.isEmpty then none else some e

/-- ACCOWN may not change at a bank that a queued or running V or M instruction targets (R27). -/
def accownRefused (c : Core) (v : BitVec 8) : Bool :=
  (List.range 8).any (fun n => decide (v.toNat / 2 ^ n % 2 ≠ c.csr.accown.toNat / 2 ^ n % 2) &&
    (c.targetsBank .V n || c.targetsBank .M n))

/-- Write 1 to bits [11:8] of VSTAT clears the channel's fault record as well (R287). -/
def clearFaultRecs (v : Word) (r : Vector (BitVec 128) 4) : Vector (BitVec 128) 4 :=
  (List.range 4).foldl (fun r ch => if wbit v (8 + ch) then r.setIfInBounds ch 0 else r) r

/-- A TRACECTL.SZ above 8 is stored as 8 (R458). -/
def capTraceSize (v : Word) : Word :=
  if 8 < bits v.toNat 11 8 then (v &&& 0xFFFFF0FF) ||| 0x800 else v

/-- Store a new value into CSR i; indexes that no mode writes stay (R188, R33, R129, R449, R458). XDONE that is
behind after a write of it or of XNEXT is advanced in the next core cycle, before any instruction can read it
(R502). An MPC written while its engine is idle stays (R190, against R42): the next instruction begins at that step (DEDUCED, log
115). -/
def csrStore (c : Core) (i : Nat) (v : Word) : Core :=
  let r := c.csr
  match i with
  | 0x001 => { c with csr := { r with cause := v } }
  | 0x002 => { c with csr := { r with epc := v } }
  | 0x003 => { c with csr := { r with etval := v } }
  | 0x004 => { c with csr := { r with evec := v } }
  | 0x005 => { c with csr := { r with estatus := v } }
  | 0x020 | 0x021 | 0x022 | 0x023 =>
    c.setEng (engOfCode (i % 4)) { c.eng (engOfCode (i % 4)) with iss := v }
  | 0x024 | 0x025 | 0x026 | 0x027 =>
    c.setEng (engOfCode (i % 4)) { c.eng (engOfCode (i % 4)) with done := v }
  | 0x030 | 0x031 | 0x032 | 0x033 =>
    c.setEng (engOfCode (i % 4)) { c.eng (engOfCode (i % 4)) with mpc := v }
  | 0x040 | 0x041 | 0x042 | 0x043 =>
    ({ c with csr := { r with xnext := r.xnext.setIfInBounds (i - 0x040) v } } : Core).advanceDone (i - 0x040)
  | 0x044 | 0x045 | 0x046 | 0x047 =>
    ({ c with csr := { r with xdone := r.xdone.setIfInBounds (i - 0x044) v } } : Core).advanceDone (i - 0x044)
  | 0x048 | 0x049 | 0x04A | 0x04B | 0x04C | 0x04D | 0x04E | 0x04F =>
    { c with csr := { r with land := r.land.setIfInBounds (i - 0x048) (v.setWidth 24) } }
  | 0x050 => { c with csr := { r with accown := v.setWidth 8 } }
  | 0x053 => { c with csr := { r with fpctl := if 4 < bits v.toNat 2 0 then v &&& 0xFFFFFFF8 else v } }
  | 0x054 => { c with csr := { r with seedlo := v } }
  | 0x055 => { c with csr := { r with seedhi := v } }
  | 0x060 => { c with csr := { r with sigmap := v } }
  | 0x061 => { c with csr := { r with pwin := BitVec.ofNat 13 (min 4096 (v.toNat / 4 * 4)) } }
  | 0x080 => { c with csr := { r with cflsel := v } }
  | 0x0C0 => { c with csr := { r with dbgctl := if bits v.toNat 2 1 = 3 then v &&& 0xFFFFFFF9 else v } }
  | 0x0C2 => { c with csr := { r with tracectl := capTraceSize v } }
  | 0x0C3 => { c with csr := { r with tracebase := v } }
  | 0x100 | 0x101 | 0x102 | 0x103 => { c with csr := { r with lpbeg := r.lpbeg.setIfInBounds (i - 0x100) v } }
  | 0x104 | 0x105 | 0x106 | 0x107 => { c with csr := { r with lpfin := r.lpfin.setIfInBounds (i - 0x104) v } }
  | 0x108 | 0x109 | 0x10A | 0x10B => { c with csr := { r with lpcnt := r.lpcnt.setIfInBounds (i - 0x108) v } }
  | 0x10C => { c with csr := { r with lpdep := v.setWidth 3 } }
  | _ => c

/-- A permitted write of CSR i by an operation with v (R188): plain bits take the operation's value, W1C
bits are cleared by the ones of v, the other bits stay. A 1 written into CLR of CFLSEL clears the conflict matrix (R461),
and a trace that proceeds again queues its LOST record (R460). -/
def csrApply (c : Core) (op : CsrOp) (i : Nat) (v : Word) : Core :=
  let w1c : Word := v &&& BitVec.ofNat 32 (csrW1cMask i)
  match i with
  | 0x000 => if wbit v 2 then { c with csr := { c.csr with pwoob := false } } else c
  | 0x051 => { c with csr := { c.csr with mstat := c.csr.mstat &&& ~~~w1c } }
  | 0x052 => { c with csr := { c.csr with vstat := c.csr.vstat &&& ~~~w1c }
                      faultRec := clearFaultRecs v c.faultRec }
  | _ =>
    let old := csrRead false 0 c i
    let m : Word := BitVec.ofNat 32 (csrRwMask i)
    let c1 := csrStore c i (((old &&& ~~~m) ||| (op.apply old v &&& m)) &&& ~~~w1c)
    if i = 0x080 ∧ wbit (op.apply old v) 31 then
      { c1 with dbg := { c1.dbg with conflicts := c1.dbg.conflicts.filter (fun p => decide (0x1000 ≤ p.1)) } }
    else if i = 0x0C2 then c1.flushLost
    else c1

end Sys2Proof.Machine
end

