-- ==== Sys2Proof/Machine/Device.lean ====
section
/-! DEFINITION. What the units of the device share: modes of the chip, device memory with the poison list
(R346), events of the harts (R378), signal slots (R382), the decision log (R404, R405), free values, and
what leaves the device. -/

namespace Sys2Proof.Machine

/-- The chip's mode (R363). -/
def State.det (s : State) : Bool := bits s.iris.ictl.toNat 0 0 == 1

/-- The chip is frozen by a translation miss (R358). -/
def State.frozen (s : State) : Bool := !s.map.walks.isEmpty

/-- The core domain stands still: the chip is frozen, or its clocks have stopped (R358, R472). -/
def State.stilled (s : State) : Bool := s.frozen || !s.power.coreClock

/-- The cores that differ from their state at reset. -/
def State.cores (s : State) : List Core := s.core :: s.others.map (·.2)

/-- Change core p. -/
def State.onCoreAt (s : State) (p : Nat) (f : Core → Core) : State := s.setCore p (f (s.coreAt p))

/-- Change every core of a list of numbers. -/
def State.eachCore (s : State) (ps : List Nat) (f : Core → Core) : State :=
  ps.foldl (fun s p => s.onCoreAt p f) s

/-- The next number of a free value (log 7). -/
def State.takeFree (s : State) : State := { s with nfree := s.nfree + 1 }

/-- Something leaves the device. -/
def State.emit (s : State) (o : Output) : State := { s with out := s.out ++ [o] }

/-- An Unsupported Request (R433). -/
def State.unsupported (s : State) : State := s.emit (.completion 1 [] false)

/-- A Completer Abort (R336). -/
def State.aborted (s : State) : State := s.emit (.completion 2 [] false)

/-- The device is out of reset and has reached a stage (R464). -/
def State.inStage (s : State) (n : Nat) : Bool := !s.mgmt.inReset && decide (n ≤ s.mgmt.stage)

/-- A request to a block that works from stage n on (R465): before that stage it completes as Unsupported Request and has
no effect. -/
def State.request (s : State) (n : Nat) (f : State → State) : Out := .next (if s.inStage n then f s else s.unsupported)

/-! ## Images (R467) -/

/-- A field of n bytes of an image. -/
def imgField (im : List Byte) (off n : Nat) : Nat := natOfBytes ((im.drop off).take n)

/-- The length and the bytes of an image's body. -/
def imgLen (im : List Byte) : Nat := imgField im 0x0C 4
def imgBody (im : List Byte) : List Byte := (im.drop 0x14A0).take (imgLen im)

/-! ## MSI-X -/

/-- The function of a vector, and its entry there (R436). -/
def State.msixEntry (s : State) (v : Nat) : Nat × Nat := if s.numVfs = 0 then (0, v) else (v / 32, v % 32)

/-- The entries of a function's MSI-X table (R436). -/
def msixEntries (fn : Nat) : Nat := if fn = 0 then 2048 else 32

/-- The number of a function's entry in `msixOpen` and `msixPend`: the 2,048 of the physical function, then 32 of each
virtual one. -/
def msixKey (fn m : Nat) : Nat := if fn = 0 then m else 2048 + 32 * (fn - 1) + m

/-- An MSI-X message on a vector (R436): it leaves where the vector's entry is not masked, else it stays pending; one of a
function that is not enabled is never sent. -/
def State.sendMsix (s : State) (v : Nat) : State :=
  let x := s.msixEntry v
  if 2048 ≤ v ∨ s.numVfs < x.1 then s
  else if setHas s.msixOpen (msixKey x.1 x.2) then s.emit (.msix x.1 x.2)
  else { s with msixPend := setAdd s.msixPend (msixKey x.1 x.2) }

/-- The Pending Bit Array of a function (R436), in words of 64 bits. -/
def State.msixPba (s : State) (fn : Nat) : List Byte :=
  (List.range ((msixEntries fn + 63) / 64)).flatMap (fun w =>
    bytesOfNat 8 ((List.range 64).foldl (fun a k => a + 2 ^ k * bit (setHas s.msixPend (msixKey fn (64 * w + k)) &&
      decide (64 * w + k < msixEntries fn))) 0))

/-! ## Device memory -/

/-- The size of GDDR (R347). -/
def gddrSize : Nat := 0x4000000000

/-- The memory port of an address (R351). -/
def portOf (a : Nat) : Nat := Nat.xor (bits a 11 8) (bits a 19 16)

/-- The 64-byte blocks that n bytes from a touch. -/
def blocks64 (a n : Nat) : List Nat := List.range' (a / 64) ((a + n - 1) / 64 + 1 - a / 64)

/-- n bytes of device memory from a. -/
def State.gddrBytes (s : State) (a n : Nat) : List Byte := readBytes s.map.gddr a n

/-- n bytes of device memory from a, as a number. -/
def State.gddrLE (s : State) (a n : Nat) : Nat := readLE s.map.gddr a n

/-- Some byte of n from a lies in a listed block (R346). -/
def State.gddrPoisoned (s : State) (a n : Nat) : Bool :=
  n != 0 && (blocks64 a n).any (fun b => setHas s.map.gddrPoison b)

/-- A read of n bytes from a meets an error that the GDDR 7 devices report as uncorrectable (R346, R352). -/
def State.memError (s : State) (a : Nat) : Bool := Config.memError s.nfree a

/-- Store bytes in device memory; a write of all of a listed block removes it (R346). -/
def State.gddrStore (s : State) (a : Nat) (bs : List Byte) : State :=
  { s with map := { s.map with
      gddr := writeBytes s.map.gddr a bs
      gddrPoison := setDelRange s.map.gddrPoison (ceilDiv a 64) ((a + bs.length) / 64) } }

/-- Store a number of n bytes in device memory. -/
def State.gddrPut (s : State) (a n v : Nat) : State := s.gddrStore a (bytesOfNat n v)

/-- The entries of a port's poison list. -/
def State.poisonCount (s : State) (q : Nat) : Nat :=
  (s.map.gddrPoison.filter (fun b => portOf (b * 64) == q)).length

/-- Bytes of host memory. -/
def State.hostStore (s : State) (a : Nat) (bs : List Byte) : State :=
  { s with map := { s.map with host := writeBytes s.map.host a bs } }

/-- n bytes at a physical address with HOST as given. -/
def State.physBytes (s : State) (host : Bool) (a n : Nat) : List Byte :=
  if host then readBytes s.map.host a n else s.gddrBytes a n

/-- Store bytes at a physical address with HOST as given. -/
def State.physStore (s : State) (host : Bool) (a : Nat) (bs : List Byte) : State :=
  if host then s.hostStore a bs else s.gddrStore a bs

/-- The bytes of device memory from lo up to hi replaced by f. -/
def memFill (m : Mem) (lo hi : Nat) (f : Nat → Byte) : Mem :=
  m.filter (fun c => decide (c.1 < lo)) ++
    ((List.range' lo (hi - lo)).map (fun a => (a, f a))).filter (fun c => c.2 != 0) ++
    m.filter (fun c => decide (hi ≤ c.1 ∧ lo ≤ c.1))

/-! ## Staging -/

/-- A staging granule is full. -/
def State.stgFull (s : State) (g : Nat) : Bool := setHas s.map.stgFull g

/-- Store a granule of staging and set it full (R285, R345). -/
def State.stgPut (s : State) (g : Nat) (bs : List Byte) (bad : List Nat) : State :=
  { s with map := { s.map with
      staging := writeBytes s.map.staging (16 * g) bs
      stgPoison := [2 * g, 2 * g + 1].foldl (fun p w => setPut p w (bad.contains (w % 2))) s.map.stgPoison
      stgErr := setDelRange s.map.stgErr (2 * g) (2 * g + 2)
      stgFull := setAdd s.map.stgFull g } }

/-- The poisoned 8-byte words after n bytes from an address were written: whole words lose their poison, and
words with poisoned bytes gain it (R345). -/
def poisonAfter (p : NatSet) (a n : Nat) (bad : Bool) : NatSet :=
  if bad then setAddRange p (a / 8) ((a + n + 7) / 8) else setDelRange p (ceilDiv a 8) ((a + n) / 8)

/-- Bytes stored into staging. -/
def State.putStaging (s : State) (a : Nat) (bs : List Byte) (bad : Bool) : State :=
  { s with map := { s.map with
      staging := writeBytes s.map.staging a bs
      stgPoison := poisonAfter s.map.stgPoison a bs.length bad
      stgErr := setDelRange s.map.stgErr (a / 8) ((a + bs.length + 7) / 8) } }

/-- The poisoned words (0 and 1) of a staging granule. -/
def State.stgBad (s : State) (g : Nat) : List Nat :=
  [0, 1].filter (fun k => setHas s.map.stgPoison (2 * g + k))

/-- A read of n bytes of staging: a word with an uncorrectable error is rewritten as poisoned (R345). -/
def State.stgMet (s : State) (o n : Nat) : State :=
  { s with map := { s.map with stgErr := setDelRange s.map.stgErr (o / 8) ((o + n + 7) / 8) } }

/-- A read of a staging granule meets an uncorrectable error (R286, R345). -/
def State.stgFails (s : State) (g : Nat) : Bool := [2 * g, 2 * g + 1].any (setHas s.map.stgErr)

/-- The bytes of a granule written with poison for a failed transfer (R286, log 16). -/
def State.freeGranule (s : State) (a : Nat) : List Byte :=
  (List.range 16).map (fun k => Config.poisonByte s.nfree (a + k))

/-- STGRNG of a context at a port: first unit and units (R350). -/
def State.stgRange (s : State) (q c : Nat) : Nat × Nat :=
  let v := tabGet s.map.stgRng (64 * q + c)
  (bits v 7 0, bits v 15 8)

/-- n staging bytes at an offset lie within a context's range at their port (R350); units of 64 KiB. -/
def State.stgOwned (s : State) (c off n : Nat) : Bool :=
  n == 0 ||
  (let r := s.stgRange (off / 0x800000) c
   let lo := off % 0x800000
   decide (r.1 * 0x10000 ≤ lo ∧ lo + n ≤ min (r.1 + r.2) 128 * 0x10000))

/-- Each of n staging bytes from an offset lies within a context's range at its own port (R350). -/
def State.stgOwnsEach (s : State) (c off n : Nat) : Bool := (List.range n).all (fun k => s.stgOwned c (off + k) 1)

/-! ## Events of the harts -/

/-- An event (R378): kind, context, channel, ARG0, ARG1, ARG2. -/
def eventOf (kind ctx ch arg0 arg1 arg2 : Nat) : BitVec 128 :=
  BitVec.ofNat 128 (kind % 256 + 2 ^ 8 * (ctx % 64) + 2 ^ 14 * (ch % 4) + 2 ^ 16 * (arg0 % 2 ^ 16) +
    2 ^ 32 * (arg1 % 2 ^ 32) + 2 ^ 64 * (arg2 % 2 ^ 64))

/-- A hart. -/
def State.hart (s : State) (h : Nat) : Hart := s.dist.harts[h]?.getD Hart.reset

/-- Replace a hart. -/
def State.setHart (s : State) (h : Nat) (x : Hart) : State :=
  { s with dist := { s.dist with harts := s.dist.harts.setIfInBounds h x } }

/-- There is room for an event in a hart's queue, and none waits for it (R378). -/
def State.eventRoom (s : State) (h : Nat) : Bool :=
  decide ((s.hart h).events.length < 256) && !s.dist.stalled.any (fun p => p.1 == h)

/-- The energy placed since the last EPUB is counted anew, and so are the tasks deferred since (R400). -/
def Distributor.newPublication (d : Distributor) : Distributor := { d with placed := 0, deferred := [] }

/-- Queue an event for a hart; where its queue is full, or earlier events still wait for it, the assist that made it
holds with the event (R378; DEDUCED, log 110). -/
def State.post (s : State) (h : Nat) (e : BitVec 128) : State :=
  let x := s.hart h
  if s.eventRoom h then
    s.setHart h { x with events := x.events ++ [e] }
  else { s with dist := { s.dist with stalled := s.dist.stalled ++ [(h, e)] } }

/-- A number that the architecture does not state (log 17): what is stated, or free value k of those that follow. -/
def State.orFree (s : State) (k : Nat) : Option Nat → Nat
  | some v => v
  | none => Config.freeNat (s.nfree + k)

/-- Queue an event for a hart (R378) with the context, channel and arguments that its kind states; the other
fields are free values (log 17). -/
def State.notify (s : State) (h kind : Nat) (ctx ch arg0 arg1 arg2 : Option Nat) : State :=
  State.post { s with nfree := s.nfree + 5 } h (eventOf kind (s.orFree 0 ctx) (s.orFree 1 ch) (s.orFree 2 arg0)
    (s.orFree 3 arg1) (s.orFree 4 arg2))

/-- An event that carries queue index q goes to hart q mod 8 (R378). -/
def queueHart (q : Nat) : Nat := q % 8

/-! ## Signal slots -/

/-- The number of signal slots (R347). -/
def slotCount : Nat := 65536

/-- VALUE of a slot (R382). -/
def State.slotValue (s : State) (k : Nat) : Nat := readLE s.dist.signals (16 * k) 4

/-- CTX of a slot (R382). -/
def State.slotCtx (s : State) (k : Nat) : Nat := readLE s.dist.signals (16 * k + 5) 1 % 64

/-- Write VALUE of a slot, with TIME of the update (R382). -/
def State.slotUpdate (s : State) (k v : Nat) : State :=
  { s with dist := { s.dist with
      signals := writeLE (writeLE s.dist.signals (16 * k) 4 v) (16 * k + 8) 8 s.time.toNat } }

/-- Complete a slot (R382): 1 is added to VALUE, and STATUS and TIME are written. No slot has the number
0xFFFF as a completion slot (R385, R421, R439). -/
def State.complete (s : State) (k status : Nat) : State :=
  if k = 0xFFFF ∨ slotCount ≤ k then s
  else
    let t := s.slotUpdate k (s.slotValue k + 1)
    { t with dist := { t.dist with signals := writeLE t.dist.signals (16 * k + 4) 1 status } }

/-! ## The decision log -/

/-- A record of the decision log (R404): kind, context, queue, TASKID, digest, slack and energy. -/
def logBytes (phase time kind ctx queue task digest slack energy : Nat) : List Byte :=
  bytesOfNat 8 phase ++ bytesOfNat 8 time ++ bytesOfNat 1 kind ++ bytesOfNat 1 ctx ++ bytesOfNat 2 queue ++
  bytesOfNat 4 task ++ bytesOfNat 4 digest ++ bytesOfNat 2 slack ++ bytesOfNat 2 energy

/-- Write a record of a kind into the ring (R404): nothing where DLSIZE is 0. -/
def State.logPut (s : State) (kind : Nat) (bs : List Byte) : State :=
  let d := s.dist
  if d.dlsize = 0 then s
  else
    let s := s.gddrStore (d.dlbase.toNat + 32 * (d.dlhead.toNat % d.dlsize.toNat)) bs
    { s with dist := { s.dist with
        dlhead := d.dlhead + 1
        dlcnt := d.dlcnt.setIfInBounds (kind - 1) (((d.dlcnt[kind - 1]?.getD 0) + 1) % 2 ^ 48) } }

/-- The order of the kinds of records that arrive in one core cycle (R405): the hardware kinds by their codes, then those that
microcode commits. -/
def logOrder (kind : Nat) : Nat := if [4, 5, 6, 8].contains kind then 9 else kind

/-- Put a record behind those that arrived before it and do not follow it (R405). -/
def insertRecord (r : Nat × List Byte) : List (Nat × List Byte) → List (Nat × List Byte)
  | [] => [r]
  | x :: t => if logOrder r.1 < logOrder x.1 then r :: x :: t else x :: insertRecord r t

/-- A core cycle in which several agents act begins (R405): the records that arrive in it are held until its end. -/
def State.holdLog (s : State) : State := { s with dist := { s.dist with logHeld := some [] } }

/-- The records that arrived in one core cycle are written (R405). -/
def State.writeHeldLog (s : State) : State :=
  match s.dist.logHeld with
  | none => s
  | some l => l.foldl (fun s r => s.logPut r.1 r.2) { s with dist := { s.dist with logHeld := none } }

/-- A record whose bytes from 0x10 on are given arrives (R404, R405): it has the PHASE and TIME of its arrival. -/
def State.logWrite (s : State) (kind : Nat) (tail : List Byte) : State :=
  let bs := bytesOfNat 8 s.iris.phase.toNat ++ bytesOfNat 8 s.time.toNat ++ tail
  match s.dist.logHeld with
  | none => s.logPut kind bs
  | some l => { s with dist := { s.dist with logHeld := some (insertRecord (kind, bs) l) } }

/-- The digest of a gang (R404): its lowest physical core, its size less 1, and the XOR of its physical
cores' low 10 bits. -/
def digestOf (members : List Nat) (size : Nat) : Nat :=
  members.foldl Nat.min 2047 % 2048 + 2 ^ 11 * ((size - 1) % 2048) +
    2 ^ 22 * (members.foldl (fun x p => Nat.xor x (p % 1024)) 0)

/-- SLACK of a record (R405): floor((key - TIME) / 1,024), saturated. -/
def slackOf (key time : Nat) : Nat :=
  let q : Int := ((key : Int) - time) / 1024
  ((max (-32768) (min 32767 q)) % 65536).toNat

/-- A record of a hardware kind for a gang (R405), with the members given. -/
def State.logGang (s : State) (kind : Nat) (g : Gang) (members : List Nat) : State :=
  s.logWrite kind (bytesOfNat 1 kind ++ bytesOfNat 1 g.ctx ++ bytesOfNat 2 g.queue ++
    bytesOfNat 4 g.task.toNat ++ bytesOfNat 4 (digestOf members g.size) ++
    bytesOfNat 2 (slackOf g.key.toNat s.time.toNat) ++ bytesOfNat 2 g.energy)

end Sys2Proof.Machine
end

