-- ==== Sys2Proof/Machine/Queues.lean ====
section
/-! DEFINITION. The queues of the work distributor in device memory (13 R383, R384): the queue directory, queue control
blocks and their rings. -/

namespace Sys2Proof.Machine

/-- The QCB that entry q of the queue directory names, where it is valid (R384): one with a bit that must be zero is not
(R7, log 93). -/
def State.dirEntry (s : State) (q : Nat) : Option Nat :=
  let e := s.gddrLE (s.dist.qdir.toNat + 8 * q) 8
  if bits e 63 63 = 1 ∧ bits e 62 48 = 0 then some (bits e 47 0) else none

/-- A field of n bytes of a QCB (R383). -/
def State.qcb (s : State) (a off n : Nat) : Nat := s.gddrLE (a + off) n

/-- The fields of a QCB (R383). -/
def State.qRing (s : State) (a : Nat) : Nat := s.qcb a 0x00 8
def State.qSize (s : State) (a : Nat) : Nat := s.qcb a 0x08 4
def State.qHead (s : State) (a : Nat) : Nat := s.qcb a 0x0C 4
def State.qTail (s : State) (a : Nat) : Nat := s.qcb a 0x10 4
def State.qOldest (s : State) (a : Nat) : Nat := s.qcb a 0x14 4
def State.qAsid (s : State) (a : Nat) : Nat := s.qcb a 0x18 2 % 4096
def State.qCtx (s : State) (a : Nat) : Nat := s.qcb a 0x1A 1 % 64
def State.qFlags (s : State) (a : Nat) : Nat := s.qcb a 0x1C 2
def State.qTripOff (s : State) (a : Nat) : Nat := s.qcb a 0x1E 2
def State.qRungOff (s : State) (a : Nat) : Nat := s.qcb a 0x20 2

/-- The bytes of a stream descriptor that must be zero are (R7, R398). -/
def State.sdOk (s : State) (d : Nat) : Bool := s.gddrLE (d + 0x1C) 4 == 0

/-- The stream of a queue, 0 for none (R383): a descriptor with a byte that must be zero is none's (R7, log 93). -/
def State.qStream (s : State) (a : Nat) : Nat :=
  let d := s.qcb a 0x28 8
  if s.sdOk d then d else 0

/-- Where record i of a queue lies (R383). -/
def State.recordAddr (s : State) (a i : Nat) : Nat := s.qRing a + 64 * (i % s.qSize a)

/-- The queue is full (R383). -/
def State.queueFull (s : State) (a : Nat) : Bool :=
  (s.qTail a + 2 ^ 32 - s.qOldest a) % 2 ^ 32 == s.qSize a

/-- Every field of a QCB that must be zero is (R383). -/
def State.qcbOk (s : State) (a : Nat) : Bool :=
  bits (s.qcb a 0x18 2) 15 12 == 0 && bits (s.qcb a 0x1A 1) 7 6 == 0 && bits (s.qcb a 0x1C 2) 15 3 == 0 &&
  s.qcb a 0x22 6 == 0

/-- The queue whose QCB lies at a physical address (R384); a QCB with a bit that must be zero is none's (R7, log 93). -/
def State.queueAt (s : State) (a : Nat) : Option Nat :=
  if s.qcbOk a then (List.range 4096).find? (fun q => s.dirEntry q == some a) else none

/-- The queues of a context with their QCBs; a QCB with a bit that must be zero is none's (R7, log 93). -/
def State.queuesOf (s : State) (c : Nat) : List (Nat × Nat) :=
  (List.range 4096).filterMap (fun q =>
    match s.dirEntry q with
    | some a => if s.qcbOk a && s.qCtx a == c then some (q, a) else none
    | none => none)

end Sys2Proof.Machine
end

