-- ==== Sys2Proof/Machine/Window.lean ====
section
/-! DEFINITION. A core's window (R280, R348): who may reach which offsets (R288, R348), reading it, writing
it, held writes (R315, R349), and the signature of what lands in it (R456). -/

namespace Sys2Proof.Machine

/-! ## Permissions -/

/-- An offset of the window may be reached (R288, R348): by a write or a read, in supervisor mode or not. -/
def windowMay (write sup : Bool) (o : Nat) : Bool :=
  decide (o < 0xA0000) ||
  (decide (0xA0000 ≤ o ∧ o < 0xA1000) && (sup || !write)) ||
  decide (0xB0000 ≤ o ∧ o < 0xB0304) ||
  (sup && decide ((0xB0304 ≤ o ∧ o < 0xB0308) ∨ (0xB1000 ≤ o ∧ o < 0xB5000) ∨
    (0xC0000 ≤ o ∧ o < 0xD0000) ∨ (0xE0000 ≤ o ∧ o < 0xE1000)))

/-- Every one of n bytes from an offset may be reached. -/
def windowAllows (write sup : Bool) (o n : Nat) : Bool :=
  (List.range n).all (fun k => windowMay write sup (o + k))

/-- The end of the part of the window that an offset lies in (R280), which is what R283 calls the end of a window (DEDUCED, log 73). -/
def windowEnd (o : Nat) : Nat :=
  if o < 0x80000 then 0x80000
  else if o < 0xA0000 then 0xA0000
  else if o < 0xB0000 then 0xB0000
  else if o < 0xC0000 then 0xC0000
  else if o < 0xE0000 then 0xE0000
  else 0x100000

/-! ## Reading -/

/-- The predicates as the register window holds them (R348). -/
def Core.predWord (c : Core) : Nat := natOfBits c.pred 8

/-- A word of the register window or the CSR image (R348). -/
def Core.regWord (c : Core) (det : Bool) (time : BitVec 64) (o : Nat) : Nat :=
  if o < 0xB0100 then (c.reg ((o - 0xB0000) / 4)).toNat
  else if o < 0xB0300 then
    (c.handle ((o - 0xB0100) / 32)).toNat / 2 ^ (32 * ((o - 0xB0100) % 32 / 4)) % 2 ^ 32
  else if o = 0xB0300 then c.predWord
  else if o = 0xB0304 then c.pc.toNat
  else if 0xB1000 ≤ o ∧ o < 0xB5000 then (csrRead det time c ((o - 0xB1000) / 4)).toNat
  else 0

/-- A byte of the full/empty bits (R348). -/
def Core.fullByte (c : Core) (j : Nat) : Nat := natOfBits (fun b => setHas c.full (8 * j + b)) 8

/-- A byte of the window (R348). -/
def Core.windowByte (c : Core) (det : Bool) (time : BitVec 64) (o : Nat) : Byte :=
  if o < 0xA1000 then memRead c.mem o
  else if 0xB0000 ≤ o ∧ o < 0xB5000 then
    BitVec.ofNat 8 (c.regWord det time (o / 4 * 4) / 2 ^ (8 * (o % 4)))
  else if 0xC0000 ≤ o ∧ o < 0xD0000 then memRead c.imem (o - 0xC0000)
  else if 0xE0000 ≤ o ∧ o < 0xE1000 then BitVec.ofNat 8 (c.fullByte (o - 0xE0000))
  else 0

/-- n bytes of the window. -/
def Core.windowBytes (c : Core) (det : Bool) (time : BitVec 64) (o n : Nat) : List Byte :=
  (List.range n).map (fun k => c.windowByte det time (o + k))

/-- An 8-byte word of the window is poisoned (R345). -/
def Core.windowBad (c : Core) (o : Nat) : Bool :=
  if o < 0xA1000 then setHas c.poison (o / 8)
  else if 0xC0000 ≤ o ∧ o < 0xD0000 then setHas c.imemPoison ((o - 0xC0000) / 8)
  else false

/-! ## Writing registers, CSRs and bits -/

/-- A word with some of its four bytes replaced: byte k by new k where it gives one. -/
def mergeWord (old : Nat) (new : Nat → Option Byte) : Nat :=
  (List.range 4).foldl (fun v k =>
    v + (match new k with
      | some b => b.toNat
      | none => old / 2 ^ (8 * k) % 256) * 2 ^ (8 * k)) 0

/-- A write of the CSR image acts as a supervisor CSRW of the word (R349): the bytes not written keep plain
bits as they stand and give zeros to W1C fields; a write that R189 would refuse or R190 hold is discarded. -/
def Core.imageWrite (c : Core) (i : Nat) (new : Nat → Option Byte) : Core :=
  let keep := (csrRead false 0 c i).toNat
  let w1c := csrW1cMask i
  let v : Word := BitVec.ofNat 32 (mergeWord (keep - (keep &&& w1c)) new)
  if !csrListed i || !csrWritable i || (i == 0x004 && !c.csr.supok) ||
      (i == 0x050 && accownRefused c (v.setWidth 8)) || (csrHolds c i).isSome then c
  else csrApply c .write i v

/-- Write some bytes of a word of the register window or the CSR image (R348, R349). -/
def Core.putRegWord (c : Core) (o : Nat) (new : Nat → Option Byte) : Core :=
  if o < 0xB0100 then
    let n := (o - 0xB0000) / 4
    c.setReg n (BitVec.ofNat 32 (mergeWord (c.reg n).toNat new))
  else if o < 0xB0300 then
    let n := (o - 0xB0100) / 32
    let k := (o - 0xB0100) % 32 / 4
    let old := (c.handle n).toNat
    let w := old / 2 ^ (32 * k) % 2 ^ 32
    c.setHandle n (BitVec.ofNat 256 (old - w * 2 ^ (32 * k) + mergeWord w new * 2 ^ (32 * k)))
  else if o = 0xB0300 then
    let v := mergeWord c.predWord new
    { c with preds := Vector.ofFn (fun (k : Fin 8) => v / 2 ^ k.val % 2 == 1) }
  else if 0xB1000 ≤ o ∧ o < 0xB5000 then c.imageWrite ((o - 0xB1000) / 4) new
  else c

/-- Write a byte of the full/empty bits (R348). -/
def Core.putFullByte (c : Core) (j : Nat) (v : Byte) : Core :=
  { c with full := (List.range 8).foldl (fun s b => setPut s (8 * j + b) (v.toNat / 2 ^ b % 2 == 1)) c.full }

/-- Write bytes into the register window, the CSR image or the full/empty bits (R349): word by word. -/
def Core.putRegBytes (c : Core) (o : Nat) (bs : List Byte) : Core :=
  if 0xE0000 ≤ o then
    (List.range bs.length).foldl (fun c k => c.putFullByte (o - 0xE0000 + k) (bs.getD k 0)) c
  else
    (List.range' (o / 4) ((o + bs.length + 3) / 4 - o / 4)).foldl (fun c w =>
      c.putRegWord (4 * w) (fun k => if o ≤ 4 * w + k then bs[4 * w + k - o]? else none)) c

/-- Write bytes into instruction memory: whole 8-byte words lose their poison, or gain it (R345). -/
def Core.putImem (c : Core) (a : Nat) (bs : List Byte) (bad : Bool) : Core :=
  { c with
    imem := writeBytes c.imem a bs
    imemPoison := if bad then setAddRange c.imemPoison (a / 8) ((a + bs.length + 7) / 8)
                  else setDelRange c.imemPoison (ceilDiv a 8) ((a + bs.length) / 8) }

/-- Write bytes into a core's memories without a change of full/empty bits: whole words lose their
poison. -/
def Core.putMem (c : Core) (a : Nat) (bs : List Byte) : Core :=
  ({ c with mem := writeBytes c.mem a bs } : Core).cleanPoison a bs.length

/-- Write bytes into the window at once (R448): the part of them that an offset's region takes. -/
def Core.putWindow (c : Core) (o : Nat) (bs : List Byte) : Core :=
  if o < 0xA1000 then c.putMem o bs
  else if 0xC0000 ≤ o ∧ o < 0xD0000 then c.putImem (o - 0xC0000) bs false
  else if (0xB0000 ≤ o ∧ o < 0xB5000) ∨ (0xE0000 ≤ o ∧ o < 0xE1000) then c.putRegBytes o bs
  else c

/-! ## Held writes -/

/-- One transfer identifier comes before another, modulo 2^32 (R278). -/
def idBefore (x y : Nat) : Bool :=
  let d := (y % 2 ^ 32 + 2 ^ 32 - x % 2 ^ 32) % 2 ^ 32
  d != 0 && decide (d < 2 ^ 31)

/-- One held write comes before another (R315). -/
def HeldWrite.before (x y : HeldWrite) : Bool :=
  decide (x.source < y.source) ||
  (x.source == y.source && (decide (x.chan < y.chan) ||
    (x.chan == y.chan && (idBefore x.id y.id || (x.id == y.id && decide (x.off < y.off))))))

/-- Put a held write into its place among others (R315). -/
def insertHeld (x : HeldWrite) : List HeldWrite → List HeldWrite
  | [] => [x]
  | y :: t => if x.before y then x :: y :: t else y :: insertHeld x t

/-- Apply one held write (R315, R349): a poisoned word reaches instruction memory as poison and changes no
register, CSR or full/empty bit. -/
def Core.applyHeldWrite (c : Core) (w : HeldWrite) : Core :=
  if 0xC0000 ≤ w.off ∧ w.off < 0xD0000 then c.putImem (w.off - 0xC0000) w.data w.poisoned
  else if w.poisoned then c
  else c.putRegBytes w.off w.data

/-- A write of the debug unit (R448): one to instruction memory is held until the core's exchange SYNC (R110), behind the
transfers' writes and in the order of arrival (DESIGN CHOICE, log 96); every other applies at once. -/
def Core.debugWrite (c : Core) (o : Nat) (bs : List Byte) : Core :=
  if 0xC0000 ≤ o ∧ o < 0xD0000 then
    let w : HeldWrite := { source := 2048, chan := 0, id := c.heldWrites.length, off := o, data := bs, poisoned := false }
    { c with heldWrites := insertHeld w c.heldWrites }
  else c.putWindow o bs

/-- HELD_WRITES_APPLY (R315, R365): every held write in the order of its key. -/
def Core.applyHeld (c : Core) : Core :=
  c.heldWrites.foldl (fun c w => c.applyHeldWrite w) { c with heldWrites := [] }

/-! ## Signatures -/

/-- The term of a granule that lands in a core's window (R456). -/
def signatureTerm (o : Nat) (bs : List Byte) (bad : Bool) : BitVec 64 :=
  let v := natOfBytes bs
  let base := 3 * 2 ^ 60 + bit bad * 2 ^ 32 + o / 16 % 2 ^ 16
  BitVec.ofNat 64 (hash (v % 2 ^ 64) base + 2 ^ 32 * hash (v / 2 ^ 64 % 2 ^ 64) (base + 2 ^ 33))

/-- A granule lands in the window: the core's signature counts it (R456). -/
def Core.sign (c : Core) (o : Nat) (bs : List Byte) (bad : Bool) : Core :=
  { c with dbg := { c.dbg with sig := c.dbg.sig + signatureTerm o bs bad } }

end Sys2Proof.Machine
end

