-- ==== Sys2Proof/Machine/RegRead.lean ====
section
/-! DEFINITION. What a load at a physical address reads (11 R347): the memory-mapped registers, block by block, as words of
32 bits (11 R350, R360, 12 R374, R375, 13 R379, R381, R394, R403, 14 R413, 15 R438, R439, 16 R463, 17 R466, R469, R475),
the windows, staging and the signal slots. An offset that no table names reads 0. -/

namespace Sys2Proof.Machine

/-! ## Enabled cores, contexts and the debug unit -/

/-- The mirror entry of a logical core (R394). -/
def mirrorDefault (disabled : List Nat) (l : Nat) : Nat :=
  let p := disabled.foldl (fun p d => if d ≤ p then p + 1 else p) l
  if 1536 ≤ l then 0 else if p < 1600 then p + 2 ^ 16 else 0

/-- Physical core p is enabled (R347, R394): it is not disabled, and fewer than 1,536 enabled cores stand before it. -/
def State.coreEnabled (s : State) (p : Nat) : Bool :=
  decide (p < 1600) && !s.mgmt.disabled.contains p &&
  decide (p < 1536 + (s.mgmt.disabled.filter (fun d => decide (d < p))).length)

/-- A mirror entry as it reads: those that differ from the default stand in the table, plus 1. -/
def State.mirrorEntry (s : State) (l : Nat) : Nat :=
  match tabGet s.dist.mirror l with
  | 0 => mirrorDefault s.mgmt.disabled l
  | v + 1 => v

/-- Word w of a context entry (R381). -/
def State.ctxWord (s : State) (c w : Nat) : Nat :=
  (s.dist.contexts[c]?.getD 0).toNat / 2 ^ (32 * w) % 2 ^ 32

/-- A context's block of the debug unit. -/
def State.debugCtx (s : State) (c : Nat) : DebugCtx := s.debugUnit.ctxs[c]?.getD .reset

/-! ## The Iris -/

/-- PHASE is odd: an exchange runs (R53). -/
def State.inExchange (s : State) : Bool := s.iris.phase.toNat % 2 == 1

/-- Some participant is HALTED (R362, R372). -/
def State.anyHalted (s : State) : Bool := s.iris.pmask.any (fun p => (s.coreAt p).halted)

/-- 32 bits of a mask of cores (R374). -/
def maskWord (m : NatSet) (k : Nat) : Nat := natOfBits (fun i => setHas m (32 * k + i)) 32

/-- ISTAT (R375). -/
def State.istat (s : State) : Nat :=
  bit s.inExchange + 2 * bit s.iris.sweep.isSome + 4 * bit s.frozen + 8 * bit s.anyHalted + 16 * bit s.iris.rej +
    2 ^ 16 * s.iris.nxexp.toNat

/-! ## Placement -/

/-- A logical core may take part in a placement (R393): available, without a task, and not reserved. -/
def State.placeable (s : State) (l : Nat) : Bool :=
  let e := s.mirrorEntry l
  let p := bits e 10 0
  bits e 19 16 != 0 && (s.coreAt p).task.isNone &&
  !(match s.dist.launch with
    | some x => x.gang.members.contains p
    | none => false)

/-- The greatest power of two up to a number. -/
def powerBelow : Nat → Nat → Nat
  | 0, _ => 1
  | k + 1, n => if 2 ^ (k + 1) ≤ n then 2 ^ (k + 1) else powerBelow k n

/-- The least origin at which a gang of n cores can stand (R393). -/
def State.findOrigin (s : State) (n : Nat) : Option Nat :=
  let step := powerBelow 6 (min n 64)
  ((List.range (1536 / step + 1)).map (· * step)).find? (fun o =>
    decide (o + n ≤ 1536) && (List.range' o n).all s.placeable)

/-- A core is warm for a context (R52). -/
def Core.warmFor (c : Core) (ctx : Nat) : Bool := (c.warm.map (·.1)) == some ctx

/-- PLRES (R393): the result reflects the state when it is read. -/
def State.plres (s : State) : Word :=
  match s.dist.plshape with
  | none => 0
  | some v =>
    let n := bits v.toNat 10 0 + 1
    match s.findOrigin n with
    | none => 0x80000000
    | some o =>
      let warm := (List.range' o n).all (fun l =>
        (s.coreAt (bits (s.mirrorEntry l) 10 0)).warmFor (bits v.toNat 16 11))
      BitVec.ofNat 32 (o + 2048 * bit warm)

/-! ## Tile scoreboards -/

/-- The grid of a scoreboard (R403). -/
def Scoreboard.width (b : Scoreboard) : Nat := bits b.cfg.toNat 6 0 + 1
def Scoreboard.height (b : Scoreboard) : Nat := bits b.cfg.toNat 13 7 + 1

/-- The number of a tile. -/
def tileOf (x y : Nat) : Nat := 128 * y + x

/-- Mask bit k of a tile is met (R403): the tile that it names has retired, or lies outside the grid; bit 37
is ignored. -/
def Scoreboard.met (b : Scoreboard) (x y k : Nat) : Bool :=
  let i : Int := (x : Int) + ((k % 25 % 5 : Nat) : Int) - 2
  let j : Int := (y : Int) + ((k % 25 / 5 : Nat) : Int) - 2
  k == 37 || b.mask.toNat / 2 ^ k % 2 == 0 ||
  decide (i < 0 ∨ j < 0 ∨ (b.width : Int) ≤ i ∨ (b.height : Int) ≤ j) ||
  setHas (if k < 25 then b.plane0 else b.plane1) (tileOf i.toNat j.toNat)

/-- A tile is to be released (R403): the board is enabled, the tile was not released in this pass, and all that
its mask names is met. -/
def Scoreboard.due (b : Scoreboard) (x y : Nat) : Bool :=
  wbit b.cfg 31 && !setHas b.freed (tileOf x y) && (List.range 50).all (b.met x y)

/-- A scoreboard. -/
def State.board (s : State) (n : Nat) : Scoreboard := s.dist.boards[n]?.getD .reset

/-- Replace a scoreboard. -/
def State.putBoard (s : State) (n : Nat) (b : Scoreboard) : State :=
  { s with dist := { s.dist with boards := s.dist.boards.setIfInBounds n b } }

/-- Release a tile into the FIFO, with SBREL (R403). -/
def State.releaseTile (s : State) (n x y : Nat) : State :=
  let b := s.board n
  (s.putBoard n { b with freed := setAdd b.freed (tileOf x y), fifo := b.fifo ++ [tileOf x y] }).notify 0 0x08 none none
    (some n) (some (x + 2 ^ 16 * y)) none

/-- Evaluate every tile of a scoreboard, row by row (R403): a tile whose release finds the FIFO of 64 entries
full, or finds no room for its SBREL (R378), is released once there is room. -/
def State.evalBoard (s : State) (n : Nat) : State :=
  let b := s.board n
  (List.range b.height).foldl (fun s y => (List.range b.width).foldl (fun s x =>
    if (s.board n).due x y && decide ((s.board n).fifo.length < 64) && s.eventRoom 0 then s.releaseTile n x y
    else s) s) s

/-- What a read of SBREL returns (R403). -/
def Scoreboard.release (b : Scoreboard) : Nat :=
  match b.fifo with
  | [] => 0
  | t :: _ => t % 128 + 2 ^ 16 * (t / 128) + 2 ^ 31

/-- A read of SBREL pops a release (R403). -/
def State.popRelease (s : State) (n : Nat) : State :=
  let b := s.board n
  if 16 ≤ n then s else (s.putBoard n { b with fifo := b.fifo.drop 1 }).evalBoard n

/-! ## The words of the registers -/

/-- Half i of a 64-bit register: 0 the low word, 1 the high one. -/
def half (x : BitVec 64) (i : Nat) : Nat := x.toNat / 2 ^ (32 * i) % 2 ^ 32

/-- The blocks of registers (R347). -/
inductive RegBlock where
  | mapUnits | xlate | codecs | dist | iris | peer | mgmt
deriving DecidableEq, Repr

/-- STGRNG of context c at port q lies at q × 0x1_0000 + 0x100 + 4c (R350): its number. -/
def stgRngAt (off : Nat) : Option Nat :=
  if 0x100 ≤ off % 0x10000 ∧ off % 0x10000 < 0x200 then some (64 * (off / 0x10000) + (off % 0x10000 - 0x100) / 4) else none

/-- SDSTAT (R360). -/
def MapUnits.sdstat (m : MapUnits) : Nat :=
  bit m.sdBusy + 2 * bit m.sdDone + 4 * bit m.sdDrained + 8 * bit m.sdRej + 2 ^ 16 * m.sdSeq.toNat

/-- A translation control register (R360). -/
def MapUnits.xlateRead (m : MapUnits) (off : Nat) : Nat :=
  match off with
  | 0x00 => half m.atb 0
  | 0x04 => half m.atb 1
  | 0x08 => half m.sdva 0
  | 0x0C => half m.sdva 1
  | 0x10 => m.sdlen.toNat
  | 0x18 => m.sdstat
  | _ => 0

/-- The engine of an offset in the codec block (R413). -/
def codecAt (off : Nat) : Option Nat :=
  let e := off / 0x10000
  if e < 24 then some e else none

/-- A codec engine: 0 to 15 encode, 16 to 23 decode. -/
def State.codec (s : State) (e : Nat) : Codec := s.codecs[e]?.getD .reset

/-- A plane queue. -/
def Codec.plane (x : Codec) (pl : Nat) : PlaneQueue := x.planes[pl]?.getD .reset

/-- CSTAT.BUSY (R413): a picture is in progress. -/
def Codec.busy (x : Codec) : Bool :=
  x.stage != .idle || x.reading || !x.ready.isEmpty || [0, 1, 2].any (fun pl => (x.plane pl).taken != 0)

/-- A codec register (R413). -/
def Codec.read (x : Codec) (off : Nat) : Nat :=
  match off with
  | 0x00 => bit x.en
  | 0x04 => x.cfg.toNat
  | 0x08 => x.size.toNat
  | 0x0C => x.rate.toNat
  | 0x10 => x.gop.toNat
  | 0x14 => x.cctx.toNat
  | 0x18 => half x.ref 0
  | 0x1C => half x.ref 1
  | 0x20 => x.refsz.toNat
  | 0x28 => half x.ring 0
  | 0x2C => half x.ring 1
  | 0x30 => bit x.busy + 2 * bit x.rej + 4 * bit x.held + 2 ^ 16 * (x.pics % 2 ^ 16)
  | _ => 0

/-- DSTAT (R379). -/
def Distributor.dstat (d : Distributor) : Nat := bit d.img + 2 * bit d.pbad + 4 * bit d.dlbad + 8 * bit d.gbad

/-- The entry with the least key, the earliest among equals (R397). -/
def topEntry : List (Nat × Word × Bool) → Option (Nat × Word × Bool)
  | [] => none
  | x :: t =>
    match topEntry t with
    | none => some x
    | some y => some (if y.1 < x.1 then y else x)

/-- SSTOPK and SSTOPT (R379, R397). -/
def Distributor.topKey (d : Distributor) : BitVec 64 :=
  match topEntry d.sorter with
  | some x => BitVec.ofNat 64 x.1
  | none => 0xFFFFFFFFFFFFFFFF
def Distributor.topTag (d : Distributor) : Nat :=
  match topEntry d.sorter with
  | some x => x.2.1.toNat
  | none => 0

/-- The launch bus is busy: with a launch, or with the END event of a gang that it cannot queue (R378, R379). -/
def Distributor.launchBusy (d : Distributor) : Bool := d.launch.isSome || !d.ended.isEmpty

/-- LBSTAT (R379). -/
def Distributor.lbstat (d : Distributor) : Nat := bit d.launchBusy + 2 * d.lbresult

/-- A scoreboard's register (R403). -/
def Scoreboard.read (b : Scoreboard) (off : Nat) : Nat :=
  match off with
  | 0x00 => b.cfg.toNat
  | 0x08 => half b.mask 0
  | 0x0C => half b.mask 1
  | 0x18 => b.release
  | 0x1C => b.plane1.length % 2 ^ 16 + 2 ^ 16 * b.passes.toNat
  | _ => 0

/-- An atomic window. -/
def State.atWindow (s : State) (h : Nat) : AtWindow := s.dist.windows[h]?.getD .reset

/-- An atomic window's register (R380). -/
def AtWindow.read (w : AtWindow) (off : Nat) : Nat :=
  match off with
  | 0x00 => half w.addr 0
  | 0x04 => half w.addr 1
  | 0x08 => w.a.toNat
  | 0x0C => w.b.toNat
  | 0x14 => w.res.toNat
  | 0x18 => 2 * bit w.casok + 4 * bit w.err
  | _ => 0

/-- A control register of the distributor below 0x400 (R379). -/
def State.distControl (s : State) (off : Nat) : Nat :=
  let d := s.dist
  match off with
  | 0x0000 => bit d.run
  | 0x0004 => d.dstat
  | 0x0008 => half d.qdir 0
  | 0x000C => half d.qdir 1
  | 0x0024 => bit (d.ctxBusy || d.stalled.any (fun e => e.2.toNat % 256 == 4))
  | 0x0030 => d.eallowd.toNat
  | 0x0038 => half d.dlbase 0
  | 0x003C => half d.dlbase 1
  | 0x0040 => d.dlsize.toNat
  | 0x0044 => d.dlhead.toNat
  | 0x0110 => half d.topKey 0
  | 0x0114 => half d.topKey 1
  | 0x0118 => d.topTag
  | 0x0124 => d.sorter.length % 512 + 2 ^ 16 * bit d.ssFull
  | 0x0204 => s.plres.toNat
  | 0x0300 => half d.lbrec 0
  | 0x0304 => half d.lbrec 1
  | 0x0308 => d.lbarg.toNat
  | 0x0310 => d.lbstat
  | 0x0314 => d.lbidx.toNat
  | 0x0318 => half d.lbkey 0
  | 0x031C => half d.lbkey 1
  | _ =>
    if 0x80 ≤ off ∧ off < 0xC0 then
      half (BitVec.ofNat 64 (d.dlcnt[(off - 0x80) / 8]?.getD 0)) (off % 8 / 4)
    else 0

/-- A word of the distributor (R379). -/
def State.distRead (s : State) (off : Nat) : Nat :=
  if off < 0x400 then s.distControl off
  else if off < 0x500 then readLE s.dist.lbparam (off - 0x400) 4
  else if 0x1000 ≤ off ∧ off < 0x1400 then (s.board ((off - 0x1000) / 0x40)).read (off % 0x40)
  else if 0x2000 ≤ off ∧ off < 0x2100 then (s.atWindow ((off - 0x2000) / 0x20)).read (off % 0x20)
  else if 0x3000 ≤ off ∧ off < 0x3400 then s.ctxWord ((off - 0x3000) / 16) (off % 16 / 4)
  else if 0x10000 ≤ off ∧ off < 0x10000 + 4 * 1536 then s.mirrorEntry ((off - 0x10000) / 4)
  else 0

/-- A register of the Iris (R374). -/
def State.irisRead (s : State) (off : Nat) : Nat :=
  let i := s.iris
  match off with
  | 0x000 => i.ictl.toNat
  | 0x008 => half i.phase 0
  | 0x00C => half i.phase 1
  | 0x010 => i.cto.toNat
  | 0x014 => i.xto.toNat
  | 0x018 => i.wdog.toNat
  | 0x01C => i.slim.toNat
  | 0x020 => s.istat
  | 0x028 => s.power.nsw
  | 0x030 => half i.nstrag 0
  | 0x034 => half i.nstrag 1
  | _ =>
    if 0x100 ≤ off ∧ off < 0x1C8 then maskWord i.pmask ((off - 0x100) / 4)
    else if 0x200 ≤ off ∧ off < 0x2C8 then maskWord i.smask ((off - 0x200) / 4)
    else 0

/-- STATE (R439). -/
def BlockState.code : BlockState → Nat
  | .idle => 0 | .collect => 1 | .done => 2

/-- A block of the unit. -/
def State.block (s : State) (b : Nat) : PeerBlock := (assocGet s.peer.blocks b).getD .reset

/-- Word w of a block's descriptor (R439). -/
def PeerBlock.word (x : PeerBlock) (w : Nat) : Nat := (x.words[w]?.getD 0).toNat

/-- A register of the peer reduction unit (R439). -/
def State.peerRead (s : State) (off : Nat) : Nat :=
  let u := s.peer
  if off = 0 then u.myrank.toNat
  else if off = 4 then bit u.rej
  else if off = 8 then half u.ndup 0
  else if off = 12 then half u.ndup 1
  else if 0x1000 ≤ off ∧ off < 0x2000 then
    let k := (off - 0x1000) / 16
    match off % 16 with
    | 0 => tabGet u.rankPort k
    | 8 => half (BitVec.ofNat 64 (tabGet u.rankBase k)) 0
    | 12 => half (BitVec.ofNat 64 (tabGet u.rankBase k)) 1
    | _ => 0
  else if 0x4000 ≤ off ∧ off < 0x24000 then
    let x := s.block ((off - 0x4000) / 32)
    let w := off % 32 / 4
    if w = 0 then x.word 0 + x.state.code else if w < 7 then x.word w else 0
  else 0

/-- The current request (R472), while its frames last. -/
def Power.current (w : Power) : Nat := if w.currentFrames = 0 then 0 else w.reqCurrent

/-- The greatest of the three requests (R472). -/
def Power.request (w : Power) : Nat := max w.reqPower (max w.current w.reqThermal)

/-- PSTAT.CAUSE (R475): the largest request; of equal ones the first in the order of the codes (log 19). -/
def Power.cause (w : Power) : Nat :=
  if w.request = 0 then 0 else if w.reqPower = w.request then 1 else if w.current = w.request then 2 else 3

/-- A power register (R475). -/
def Power.read (w : Power) (off : Nat) : Nat :=
  match off with
  | 0x00 => w.plim
  | 0x04 => w.pburst
  | 0x08 => w.droop
  | 0x0C => w.nsw + 16 * w.cause + 2 ^ 16 * w.ndroop
  | 0x10 => w.tj
  | _ => 0

/-- BOOTSTAT (R466). -/
def Mgmt.bootstat (m : Mgmt) : Nat :=
  m.stage + 4 * bit m.err + 8 * bit m.recov + 2 ^ 16 * min 255 m.repairs.length

/-- MBSTAT (R469). -/
def Mgmt.mbstat (m : Mgmt) : Nat := bit m.mbBusy.isSome + 2 * m.mbResult + 16 * bit m.mbRej

/-- A port. -/
def State.port (s : State) (p : Nat) : PciePort := s.ports[p]?.getD { speed := 0, width := 0, cfg := 0 }

/-- PLINK (R438): FLIT mode is that of 64 GT/s and above (R432). -/
def PciePort.plink (x : PciePort) : Nat := x.speed + 8 * x.width + 256 * bit (decide (6 ≤ x.speed))

/-- A register of port p (R438). -/
def State.portRead (s : State) (p off : Nat) : Nat :=
  if off = 0 then (s.port p).plink
  else if off = 4 then (s.port p).cfg.toNat
  else if p = 0 ∧ 0x108 ≤ off ∧ off < 0x300 then half (s.vfBase[(off - 0x100) / 8]?.getD 0) (off % 8 / 4)
  else 0

/-- A chip-wide register of the debug unit (R463). -/
def DebugUnit.read (d : DebugUnit) (off : Nat) : Nat :=
  match off with
  | 0x000 => d.ctx + 2 ^ 16 * bit d.armed
  | 0x008 => d.iv.toNat
  | 0x00C => d.core.toNat
  | 0x010 => half d.cnt 0
  | 0x014 => half d.cnt 1
  | 0x01C => bit d.div + 2 * bit d.slf + 2 ^ 16 * d.divcore.toNat
  | 0x020 => half d.divphase 0
  | 0x024 => half d.divphase 1
  | _ => 0

/-- A register of a context's block (R463). -/
def DebugCtx.read (d : DebugCtx) (off : Nat) : Nat :=
  match off with
  | 0x00 => half d.ckbase 0
  | 0x04 => half d.ckbase 1
  | 0x08 => d.ckctl.toNat
  | 0x0C => d.ckidx.toNat
  | 0x10 => half d.slbase 0
  | 0x14 => half d.slbase 1
  | 0x18 => d.mode
  | _ => 0

/-- A register of the debug unit (R463). -/
def State.debugRead (s : State) (off : Nat) : Nat :=
  if off < 0x1000 then s.debugUnit.read off
  else if off < 0x1800 then (s.debugCtx ((off - 0x1000) / 0x20)).read (off % 0x20)
  else 0

/-- A word of the power controller, the mailbox, the ports and the debug unit (R347). -/
def State.mgmtRead (s : State) (off : Nat) : Nat :=
  if off = 0 then s.mgmt.bootstat
  else if off = 0x14 then s.mgmt.mbstat
  else if 0x1000 ≤ off ∧ off < 0x2000 then s.power.read (off - 0x1000)
  else if 0x100000 ≤ off ∧ off < 0x105000 then s.portRead ((off - 0x100000) / 0x1000) (off % 0x1000)
  else if 0x200000 ≤ off ∧ off < 0x202000 then s.debugRead (off - 0x200000)
  else if 0x400000 ≤ off ∧ off < 0x800000 then readLE s.mgmt.mbbuf (off - 0x400000) 4
  else 0

/-- A word of a block of registers. -/
def State.regRead (s : State) (b : RegBlock) (off : Nat) : Nat :=
  match b with
  | .mapUnits => (stgRngAt off).elim 0 (tabGet s.map.stgRng)
  | .xlate => s.map.xlateRead off
  | .codecs => (codecAt off).elim 0 (fun e => (s.codec e).read (off % 0x10000))
  | .dist => s.distRead off
  | .iris => s.irisRead off
  | .peer => s.peerRead off
  | .mgmt => s.mgmtRead off

/-- What a read of a word changes: SBREL pops a release (R403). -/
def State.regTouch (s : State) (b : RegBlock) (off : Nat) : State :=
  if b = .dist ∧ 0x1000 ≤ off ∧ off < 0x1400 ∧ off % 0x40 = 0x18 then s.popRelease ((off - 0x1000) / 0x40) else s

/-! ## The physical map -/

/-- What a range of the physical map holds. -/
inductive RegionKind where
  | gddr | windows | staging | stgBits | slots
  | regs (b : RegBlock)
deriving DecidableEq, Repr

/-- A range of the physical map. -/
structure Region where
  base : Nat
  size : Nat
  kind : RegionKind
deriving DecidableEq, Repr

/-- The physical map (R347). -/
def physMap : List Region :=
  [⟨0, 0x4000000000, .gddr⟩,
   ⟨0x400000000000, 1600 * 0x100000, .windows⟩,
   ⟨0x410000000000, 0x8000000, .staging⟩,
   ⟨0x410010000000, 0x100000, .stgBits⟩,
   ⟨0x420000000000, 0x100000, .regs .mapUnits⟩,
   ⟨0x420000100000, 0x100, .regs .xlate⟩,
   ⟨0x430000000000, 0x100000, .slots⟩,
   ⟨0x440000000000, 0x1000000, .regs .codecs⟩,
   ⟨0x450000000000, 0x1000000, .regs .dist⟩,
   ⟨0x460000000000, 0x10000, .regs .iris⟩,
   ⟨0x470000000000, 0x5000000, .regs .peer⟩,
   ⟨0x480000000000, 0x1000000, .regs .mgmt⟩]

/-- The range that holds n bytes from an address. -/
def regionAt (a n : Nat) : Option Region := physMap.find? (fun r => decide (r.base ≤ a ∧ a + n ≤ r.base + r.size))

/-- The outcome of an access: its bytes and whether poison was met, no range there, or a core that holds a
task (R336). -/
inductive Answer where
  | ok (bytes : List Byte) (bad : Bool)
  | unmapped
  | busy
deriving DecidableEq, Repr

/-- The 4-byte words that n bytes from an offset touch. -/
def wordsOf (off n : Nat) : List Nat := List.range' (off / 4) ((off + n + 3) / 4 - off / 4)

/-- Read n bytes of a block of registers. -/
def State.regBytes (s : State) (b : RegBlock) (off n : Nat) : List Byte :=
  (List.range n).map (fun k =>
    let o := off + k
    BitVec.ofNat 8 (s.regRead b (o / 4 * 4) / 2 ^ (8 * (o % 4))))

/-- What a read of n bytes of a block of registers changes. -/
def State.touchBytes (s : State) (b : RegBlock) (off n : Nat) : State :=
  (wordsOf off n).foldl (fun s w => s.regTouch b (4 * w)) s

/-- A byte of staging's full/empty bits (R347). -/
def State.stgBitsByte (s : State) (j : Nat) : Byte := BitVec.ofNat 8 (natOfBits (fun b => s.stgFull (8 * j + b)) 8)

/-- A core's window is out of reach (R336): it holds a task. -/
def State.windowBusy (s : State) (p : Nat) : Bool := decide (p < coreCount) && (s.coreAt p).task.isSome

/-- Read n bytes of a window: those of cores that are not enabled read 0 (R347). -/
def State.windowRead (s : State) (p o n : Nat) : Answer :=
  if s.windowBusy p then .busy
  else if !s.coreEnabled p then .ok (List.replicate n 0) false
  else
    let c := s.coreAt p
    .ok (c.windowBytes s.det s.time o n)
      ((List.range' (o / 8) ((o + n + 7) / 8 - o / 8)).any (fun w => c.windowBad (8 * w)))

/-- A load of n bytes at a physical address. -/
def State.physLoad (s : State) (a n : Nat) : State × Answer :=
  match regionAt a n with
  | none => (s, .unmapped)
  | some r =>
    let o := a - r.base
    match r.kind with
    | .gddr => (s, .ok (s.gddrBytes o n) (s.gddrPoisoned o n))
    | .windows => (s, s.windowRead (o / 0x100000) (o % 0x100000) n)
    | .staging => (s.stgMet o n, .ok (readBytes s.map.staging o n)
        ((List.range' (o / 8) ((o + n + 7) / 8 - o / 8)).any (setHas s.map.stgPoison)))
    | .stgBits => (s, .ok ((List.range n).map (fun k => s.stgBitsByte (o + k))) false)
    | .slots => (s, .ok (readBytes s.dist.signals o n) false)
    | .regs b => (s.touchBytes b o n, .ok (s.regBytes b o n) false)

end Sys2Proof.Machine
end

