-- ==== Sys2Proof/Machine/Jobs.lean ====
section
/-! DEFINITION. Job graphs, the completion of records and the rungs of streams as the shipped microcode
handles them (13 R387, R397, R399 to R402). -/

namespace Sys2Proof.Machine

/-- The harts run the shipped microcode: from stage 2 on, while DCTL.RUN is set (R379, R464). -/
def State.microcodeRuns (s : State) : Bool := s.inStage 2 && s.dist.run

/-! ## Streams -/

/-- Fields of a stream descriptor (R398). -/
def State.sdRung (s : State) (d : Nat) : Nat := s.gddrLE (d + 0x14) 1
def State.sdRungs (s : State) (d : Nat) : Nat := s.gddrLE (d + 0x15) 1
def State.sdHyst (s : State) (d : Nat) : Nat := s.gddrLE (d + 0x16) 1
def State.sdUpcnt (s : State) (d : Nat) : Nat := s.gddrLE (d + 0x17) 1
def State.sdCost (s : State) (d r : Nat) : Nat := s.gddrLE (d + 0x40 + 16 * r + 8) 4

/-- A microcode record of the decision log for a task without a gang (R404, R405). -/
def State.logTask (s : State) (kind q idx key : Nat) : State :=
  match s.dirEntry q with
  | none => s.logWrite kind (bytesOfNat 1 kind ++ bytesOfNat 1 0 ++ bytesOfNat 2 q ++ bytesOfNat 8 0 ++
      bytesOfNat 2 (slackOf key s.time.toNat) ++ bytesOfNat 2 0)
  | some a =>
    let r := s.recordAddr a idx
    s.logWrite kind (bytesOfNat 1 kind ++ bytesOfNat 1 (s.qCtx a) ++ bytesOfNat 2 q ++
      bytesOfNat 4 (s.gddrLE (r + 0x0C) 4) ++ bytesOfNat 4 0 ++ bytesOfNat 2 (slackOf key s.time.toNat) ++
      bytesOfNat 2 (s.gddrLE (r + 0x3A) 2))

/-- The queue and the ring index that a sorter tag names (log 18). -/
def tagQueue (tag : Word) : Nat := bits tag.toNat 11 0
def tagIndex (tag : Word) : Nat := bits tag.toNat 31 12

/-- The stream of a queue, 0 for none (R383). -/
def State.streamOf (s : State) (q : Nat) : Nat :=
  match s.dirEntry q with
  | some a => s.qStream a
  | none => 0

/-- The record of a task takes its deadline from the stream (R385, R399). -/
def State.fromStream (s : State) (q idx : Nat) : Bool :=
  match s.dirEntry q with
  | some a => s.qStream a != 0 && s.gddrLE (s.recordAddr a idx + 0x28) 8 == 0
  | none => false

/-- RUNG_DOWN (R399): once per frame, where a lower rung is left. The stream's waiting tasks get keys for the
new COST; a task with a DEADLINE of its own keeps its key. -/
def State.rungDown (s : State) (tag : Word) (key : Nat) : State :=
  let d := s.streamOf (tagQueue tag)
  let r := s.sdRung d
  if d = 0 ∨ setHas s.dist.fell d ∨ s.sdRungs d ≤ r + 1 then s
  else
    let old := s.sdCost d r
    let new := s.sdCost d (r + 1)
    let s := (s.gddrPut (d + 0x14) 1 (r + 1)).gddrPut (d + 0x17) 1 0
    let s := s.logTask 4 (tagQueue tag) (tagIndex tag) key
    let key' := fun (e : Nat × Word × Bool) =>
      if s.fromStream (tagQueue e.2.1) (tagIndex e.2.1) then ((e.1 : Int) + old - new).toNat % 2 ^ 64 else e.1
    let mine := s.dist.sorter.filter (fun e => s.streamOf (tagQueue e.2.1) == d)
    let rest := s.dist.sorter.filter (fun e => s.streamOf (tagQueue e.2.1) != d)
    { s with dist := { s.dist with
        fell := setAdd s.dist.fell d
        sorter := rest ++ mine.map (fun e => (key' e, e.2.1, false)) } }

/-- The frame of a stream retires with its last task (R399): a frame with slack enough counts towards a rise
of a rung. -/
def State.frameEnd (s : State) (d q idx key : Nat) : State :=
  let r := s.sdRung d
  let slack : Int := (key : Int) - s.time.toNat
  if !s.sdOk d ∨ r = 0 ∨ slack < (s.sdCost d (r - 1) : Int) - s.sdCost d r then s
  else
    let n := s.sdUpcnt d + 1
    if s.sdHyst d ≤ n then
      ((s.gddrPut (d + 0x14) 1 (r - 1)).gddrPut (d + 0x17) 1 0).logTask 5 q idx key
    else s.gddrPut (d + 0x17) 1 n

/-- A frame of a stream has graph nodes under way (R399). -/
def State.frameOpen (s : State) (d : Nat) : Bool :=
  s.dist.nodes.any (fun n => n.sd == d) || s.dist.heldAppends.any (fun n => n.sd == d) ||
  s.dist.graphSignals.any (fun n => n.2 == d)

/-! ## Graph nodes -/

/-- The 32-bit word at a physical address that a conditional node tests (R402), with what its load changes: 0 where no
word can be read (log 94). -/
def State.testWord (s : State) (a : Nat) : State × Nat :=
  match s.physLoad a 4 with
  | (t, .ok bs _) => (t, natOfBytes bs)
  | _ => (s, 0)

/-- The bytes of a node that must be zero are (R7, R401). -/
def State.nodeOk (s : State) (a : Nat) : Bool := s.gddrLE (a + 0x01) 1 == 0 && s.gddrLE (a + 0x3A) 6 == 0

/-- Add predecessor signals for successor nodes; address 0 names none (R401). -/
def State.addSignals (s : State) (sd : Nat) (as : List Nat) : State :=
  { s with dist := { s.dist with
      graphSignals := s.dist.graphSignals ++ (as.filter (· != 0)).map (fun a => (a, sd)) } }

/-- Successor i of a node (R401). -/
def State.succ (s : State) (a i : Nat) : Nat := s.gddrLE (a + 0x18 + 8 * i) 8

/-- A node retires (R402): its slot completes, and it signals successors. -/
def State.retireNode (s : State) (a sd : Nat) (succs : List Nat) : State :=
  (s.complete (s.gddrLE (a + 0x38) 2) 0).addSignals sd (succs.map (s.succ a))

/-- The loop record of a task node joins a queue (R402). -/
def State.joinQueue (s : State) (q qcb : Nat) (h : HeldAppend) : State :=
  let t := s.qTail qcb
  let s := (s.gddrStore (s.recordAddr qcb t) (s.gddrBytes h.record 64)).gddrPut (qcb + 0x10) 4 (t + 1)
  let n : GraphTask := { queue := q, idx := t, node := h.node, sd := h.sd }
  { s with dist := { s.dist with nodes := s.dist.nodes ++ [n] } }

/-- A task node fires (R402): it appends its record, waits while its queue is full, or is refused. -/
def State.fireTask (s : State) (a sd : Nat) : State :=
  let qcb := s.gddrLE (a + 0x08) 8
  match s.queueAt qcb with
  | none => s.complete (s.gddrLE (a + 0x38) 2) 3
  | some q =>
    let h : HeldAppend := { queue := q, record := s.gddrLE (a + 0x10) 8, node := a, sd := sd }
    if s.queueFull qcb || s.dist.heldAppends.any (fun x => x.queue == q) then
      { s with dist := { s.dist with heldAppends := s.dist.heldAppends ++ [h] } }
    else s.joinQueue q qcb h

/-- GRAPH_NODE_FIRE (R402). -/
def State.fireNode (s : State) (a sd : Nat) : State :=
  match s.gddrLE a 1 with
  | 1 => s.fireTask a sd
  | 2 =>
    let w := s.testWord (s.gddrLE (a + 0x08) 8)
    if Nat.land w.2 (s.gddrLE (a + 0x10) 4) ≠ s.gddrLE (a + 0x14) 4 then w.1.retireNode a sd [0, 1]
    else w.1.retireNode a sd [2, 3]
  | 3 =>
    let count := (s.gddrLE (a + 0x14) 4 + 1) % 2 ^ 32
    let limit := s.gddrLE (a + 0x10) 4
    let s := s.gddrPut (a + 0x14) 4 count
    let s := if limit ≠ 0 ∧ limit < count then s else s.addSignals sd [s.gddrLE (a + 0x08) 8]
    s.retireNode a sd [0, 1, 2, 3]
  | _ => s

/-- One predecessor signal of a node is counted (R402): it changes nothing in a node with an error (R7, log 93). -/
def State.signalNode (s : State) (a sd : Nat) : State :=
  let npred := s.gddrLE (a + 0x02) 2
  let pending := s.gddrLE (a + 0x04) 4
  if npred = 0 ∨ !([1, 2, 3].contains (s.gddrLE a 1)) ∨ !s.nodeOk a then s
  else if pending ≤ 1 then (s.gddrPut (a + 0x04) 4 npred).fireNode a sd
  else s.gddrPut (a + 0x04) 4 (pending - 1)

/-- The waiting signals are counted one by one (R402), at most the given number of them in one step. -/
def State.countSignals (s : State) : Nat → State
  | 0 => s
  | n + 1 =>
    match s.dist.graphSignals with
    | [] => s
    | (a, sd) :: t =>
      (({ s with dist := { s.dist with graphSignals := t } } : State).signalNode a sd).countSignals n

/-- The signals that one step counts at most; those left are counted by the next step that counts any. -/
def signalBudget : Nat := 4096

/-- The microcode counts the signals that wait (R402); while no hart runs it they go on waiting (R464; log 111). -/
def State.fireNodes (s : State) : State := if s.microcodeRuns then s.countSignals signalBudget else s

/-- Deliver one predecessor signal to a node (R402): an address that is not 64-aligned sets GBAD (R379). -/
def State.deliverSignal (s : State) (a sd : Nat) : State :=
  if a % 64 ≠ 0 then { s with dist := { s.dist with gbad := true } }
  else (s.addSignals sd [a]).fireNodes

/-! ## Completion of records -/

/-- OLDEST of a queue advances over the records that have completed (R387). -/
def State.advanceOldest (s : State) (q qcb : Nat) : Nat → State
  | 0 => s
  | n + 1 =>
    let o := s.qOldest qcb
    if s.dist.completed.contains (q, o) then
      (({ s with dist := { s.dist with completed := s.dist.completed.erase (q, o) } } : State).gddrPut
        (qcb + 0x14) 4 (o + 1)).advanceOldest q qcb n
    else s

/-- The appends that a queue holds are made while it has room (R402). -/
def State.retryAppends (s : State) (q qcb : Nat) : Nat → State
  | 0 => s
  | n + 1 =>
    match s.dist.heldAppends.find? (fun h => h.queue == q) with
    | none => s
    | some h =>
      if s.queueFull qcb then s
      else (({ s with dist := { s.dist with heldAppends := s.dist.heldAppends.erase h } } : State).joinQueue q qcb h).retryAppends
        q qcb n

/-- The graph node whose record has completed retires (R402); with it may end its stream's frame (R399). -/
def State.endNode (s : State) (q idx key : Nat) : State :=
  match s.dist.nodes.find? (fun n => n.queue == q && n.idx == idx) with
  | none => s
  | some n =>
    let s := { s with dist := { s.dist with nodes := s.dist.nodes.erase n } }
    let s := (s.retireNode n.node n.sd [0, 1, 2, 3]).fireNodes
    if n.sd ≠ 0 ∧ !s.frameOpen n.sd then s.frameEnd n.sd q idx key else s

/-- The record at a ring index of a queue completes with a status (R387, R391): its completion record is
written, OLDEST advances, and its graph node retires. -/
def State.completeRecord (s : State) (q idx status key : Nat) : State :=
  match s.dirEntry q with
  | none => s
  | some qcb =>
    let s := s.complete (s.gddrLE (s.recordAddr qcb idx + 0x3C) 2) status
    let s := { s with dist := { s.dist with completed := s.dist.completed ++ [(q, idx)] } }
    let s := s.advanceOldest q qcb 65536
    let s := s.retryAppends q qcb 65536
    s.endNode q idx key

/-- The appends that the queue with an index holds are tried again (R402). -/
def State.retryQueue (s : State) (q : Nat) : State :=
  match s.dirEntry q with
  | none => s
  | some qcb => s.retryAppends q qcb 65536

/-- The microcode does a piece of its work. -/
def State.doChore (s : State) : Chore → State
  | .complete q idx status key => s.completeRecord q idx status key
  | .node q idx key => s.endNode q idx key
  | .append q => s.retryQueue q
  | .rungDown tag key => s.rungDown tag key

/-- Work for the microcode: it does it at once where a hart runs it; else the work waits (R464; log 111). -/
def State.chore (s : State) (c : Chore) : State :=
  if s.microcodeRuns then s.doChore c else { s with dist := { s.dist with chores := s.dist.chores ++ [c] } }

/-- The microcode, which begins to run, does the work that has waited, in its order. -/
def State.doChores (s : State) : State :=
  (s.dist.chores.foldl State.doChore { s with dist := { s.dist with chores := [] } }).fireNodes

/-- The launch bus queues the END event of the gangs that have ended, the first ended first, while there is room, and holds
while there is none (R378, R391); with the event the microcode completes the record, where that is still to be done. The
fuel is their number. -/
def State.reportEnds (s : State) : Nat → State
  | 0 => s
  | n + 1 =>
    match s.dist.ended with
    | [] => s
    | (g, done) :: t =>
      if !s.eventRoom (queueHart g.queue) then s
      else
        let s := State.notify { s with dist := { s.dist with ended := t } } (queueHart g.queue) 0x03 (some g.ctx) none
          (some g.queue) (some g.ring) (some (bit g.preempted + 2 * bit g.discarded))
        (if done then s.chore (.complete g.queue g.ring 0 g.key.toNat) else s).reportEnds n

/-! ## Steps -/

/-- GRUN (R402). -/
def execGrun (v : BitVec 64) (s : State) : Out := s.request 1 (fun s => s.deliverSignal v.toNat 0)

/-- Mark the first entry of the sorter that TIME has passed and that is not marked. -/
def markPassed (time : Nat) : List (Nat × Word × Bool) → List (Nat × Word × Bool)
  | [] => []
  | e :: t => if !e.2.2 && decide (e.1 < time) then (e.1, e.2.1, true) :: t else e :: markPassed time t

/-- SLACKNEG (R397): the first entry of the sorter that TIME has passed and for which none was queued; the
shipped microcode lowers its stream's rung (R399). The sorter holds while the event finds no room (R378). -/
def execSlackneg (s : State) : Out :=
  onDevice s (fun s =>
    if !s.eventRoom 0 then none
    else (s.dist.sorter.find? (fun e => !e.2.2 && decide (e.1 < s.time.toNat))).map (fun e =>
      let s := { s with dist := { s.dist with sorter := markPassed s.time.toNat s.dist.sorter } }
      (s.notify 0 0x07 none none none (some e.2.1.toNat) none).chore (.rungDown e.2.1 e.1)))

/-- STREAM_RELEASE (R399): the microcode, while a hart runs it (R464), releases a frame of the stream whose descriptor lies at
an address at NEXTREL, once the graph of the frame before has retired; none of a descriptor whose field at 0x1C is not zero
(R7, log 93). -/
def execStreamRelease (sd : Nat) (s : State) : Out :=
  onDevice s (fun s =>
    let next := s.gddrLE (sd + 0x08) 8
    if !s.microcodeRuns ∨ s.time.toNat < next ∨ s.frameOpen sd ∨ !s.sdOk sd then none
    else
      let s := s.gddrPut (sd + 0x08) 8 (next + s.gddrLE sd 8)
      let s := s.gddrPut (sd + 0x38) 8 (s.gddrLE (sd + 0x38) 8 + 1)
      let s := { s with dist := { s.dist with fell := setDel s.dist.fell sd } }
      some (s.deliverSignal (s.gddrLE (sd + 0x30) 8) sd))

end Sys2Proof.Machine
end

