-- ==== Sys2Proof/Machine/Translate.lean ====
section
/-! DEFINITION. Address translation (11 R353 to R357): the ASID table, walks, the TLBs with their hit
counters, replacement, and reads and writes of virtual ranges. -/

namespace Sys2Proof.Machine

/-- The failure kinds of R286. -/
def kNotPres : Nat := 1
def kPerm : Nat := 2
def kFeFull : Nat := 3
def kPoison : Nat := 4
def kTimeout : Nat := 5
def kNotFilled : Nat := 6
def kHdr : Nat := 7
def kCheck : Nat := 8
def kQFull : Nat := 9
def kResource : Nat := 10
def kMemErr : Nat := 11
def kPeer : Nat := 12

/-- What a walk gives (R354): the page's size, the address of its leaf entry and the entry, or a failure
kind. -/
inductive WalkResult where
  | leaf (size addr entry : Nat)
  | fail (kind : Nat)
deriving DecidableEq, Repr

/-- The index bits of a level: the lowest bit, the highest, and the size of a leaf page (R354). -/
def levelLow (l : Nat) : Nat := if l = 1 then 39 else if l = 2 then 30 else if l = 3 then 21 else 16
def levelHigh (l : Nat) : Nat := if l = 1 then 51 else if l = 2 then 38 else if l = 3 then 29 else 20

/-- The alignment of the table of a level (R354). -/
def tableAlign (l : Nat) : Nat := if l = 1 then 0x10000 else if l = 4 then 256 else 4096

/-- A leaf entry meets no walk error (R354). -/
def leafOk (l e : Nat) : Bool :=
  l != 1 && bits e 15 8 == 0 && bits e 3 2 != 3 && (bits e 63 16 * 0x10000) % 2 ^ levelLow l == 0 &&
  (bits e 7 7 == 1 || decide (bits e 63 16 * 0x10000 < gddrSize))

/-- A pointer entry meets no walk error (R354). -/
def pointerOk (l e : Nat) : Bool :=
  l != 4 && bits e 7 2 == 0 && (bits e 63 8 * 256) % tableAlign (l + 1) == 0 &&
  decide (bits e 63 8 * 256 < gddrSize)

/-- The walk from the table of a level down (R354), through at most the given number of levels. A read of a
listed block is an uncorrectable error, as is one that the devices report. -/
def State.walkFrom (s : State) (va : Nat) : Nat → Nat → Nat → WalkResult
  | 0, _, _ => .fail kNotPres
  | n + 1, l, tab =>
    let a := tab + 8 * bits va (levelHigh l) (levelLow l)
    if s.gddrPoisoned a 8 || s.memError a then .fail kMemErr
    else
      let e := s.gddrLE a 8
      if bits e 0 0 = 0 then .fail kNotPres
      else if bits e 1 1 = 1 then
        if leafOk l e then .leaf (2 ^ levelLow l) a e else .fail kNotPres
      else if pointerOk l e then s.walkFrom va n (l + 1) (bits e 63 8 * 256)
      else .fail kNotPres

/-- The ASID table entry (R353) that a map unit has cached, if any. -/
def State.cachedAsid (s : State) (u asid : Nat) : Option (Nat × Nat) :=
  (s.map.asidCache.find? (fun x => x.1 == u && x.2.1 == asid)).map (fun x => (x.2.2.1, x.2.2.2))

/-- The ASID table entry, from the cache of a map unit or read and cached (R353, R356); none where the read
meets an uncorrectable error. -/
def State.asidEntry (s : State) (u asid : Nat) : State × Option (Nat × Nat) :=
  match s.cachedAsid u asid with
  | some e => (s, some e)
  | none =>
    let a := s.map.atbNow.toNat + 16 * asid
    if s.gddrPoisoned a 16 || s.memError a then (s, none)
    else
      let e := (s.gddrLE a 8, s.gddrLE (a + 8) 8)
      ({ s with map := { s.map with asidCache := s.map.asidCache ++ [(u, asid, e)] } }, some e)

/-! ## The TLB -/

/-- A TLB entry translates an address for a unit and an ASID. -/
def TlbEntry.covers (t : TlbEntry) (u asid va : Nat) : Bool :=
  t.unit == u && t.asid == asid && decide (t.va ≤ va ∧ va < t.va + t.size)

/-- The TLB entry for an address. -/
def State.tlbFind (s : State) (u asid va : Nat) : Option TlbEntry := s.map.tlb.find? (·.covers u asid va)

/-- Count n pieces on the entry for an address (R356). -/
def State.tlbCount (s : State) (u asid va n : Nat) : State :=
  { s with map := { s.map with
      tlb := s.map.tlb.map (fun t => if t.covers u asid va then { t with count := min 0xFFFF (t.count + n) } else t) } }

/-- Write the count of an entry that is evicted, shot down or flushed to its shadow word (R356). The word's address is taken
modulo 2^48; one at or above 256 GiB, where nothing reads it, and one in a listed block are written like any other (DESIGN
CHOICE, log 132). -/
def State.flushCount (s : State) (t : TlbEntry) : State :=
  if t.count = 0 ∨ t.shoff = 0 then s
  else
    let a := (t.leafAddr + t.shoff) % 2 ^ 48
    s.gddrPut a 4 (min 0xFFFFFFFF (s.gddrLE a 4 + t.count))

/-- The entries of a unit. -/
def State.tlbOf (s : State) (u : Nat) : List TlbEntry := s.map.tlb.filter (fun t => t.unit == u)

/-- Make room in a unit that is full: the oldest entry that is no anchor leaves (R357). -/
def State.tlbRoom (s : State) (u : Nat) : State :=
  if (s.tlbOf u).length < 4096 then s
  else
    match s.map.tlb.find? (fun t => t.unit == u && !t.anchor) with
    | none => s
    | some t => { s.flushCount t with map := { (s.flushCount t).map with tlb := s.map.tlb.erase t } }

/-- Load a translation (R356, R357), counting n pieces. -/
def State.tlbLoad (s : State) (u asid va n size addr leaf shoff : Nat) : State :=
  match s.tlbFind u asid va with
  | some _ => s.tlbCount u asid va n
  | none =>
    let s := s.tlbRoom u
    let anchors := ((s.tlbOf u).filter (·.anchor)).length
    let t : TlbEntry :=
      { unit := u, asid := asid, va := va / size * size, size := size, leafAddr := addr, leaf := leaf
        shoff := shoff, count := min 0xFFFF n, anchor := bits leaf 6 6 == 1 && decide (anchors < 512) }
    { s with map := { s.map with tlb := s.map.tlb ++ [t] } }

/-- A walk ends (R354 to R356): the leaf that translates an address, loaded into the unit's TLB with n
pieces counted, or the failure kind. -/
def State.walk (s : State) (u asid va n : Nat) : State × WalkResult :=
  match s.asidEntry u asid with
  | (s, none) => (s.takeFree, .fail kMemErr)
  | (s, some e) =>
    if bits e.1 0 0 = 0 then (s, .fail kPerm)
    else if bits e.1 15 7 ≠ 0 ∨ gddrSize ≤ bits e.1 63 16 * 0x10000 then (s, .fail kNotPres)
    else
      match s.walkFrom va 4 1 (bits e.1 63 16 * 0x10000) with
      | .fail k => (s.takeFree, .fail k)
      | .leaf size a l => (s.takeFree.tlbLoad u asid va n size a l e.2, .leaf size a l)

/-- A look-up of an address (R355, R358): what the TLB gives with n pieces counted, a cached ASID entry that
is not valid, or nothing, which takes a walk. -/
def State.tlbLookup (s : State) (u asid va n : Nat) : Option (State × WalkResult) :=
  match s.tlbFind u asid va with
  | some t => some (s.tlbCount u asid va n, .leaf t.size t.leafAddr t.leaf)
  | none =>
    match s.cachedAsid u asid with
    | some e => if bits e.1 0 0 = 0 then some (s, .fail kPerm) else none
    | none => none

/-- What an access to a page gives once it is translated (R355 step 3): the byte address at va, whether it
lies in host memory, and the ordering kind; `hostOk` says that R300 permits the operation on a host page. -/
def pageResult (write hostOk : Bool) (va : Nat) : WalkResult → PageResult
  | .fail k => .fail k
  | .leaf size _ l =>
    let host := bits l 7 7 == 1
    if (write && bits l 4 4 == 1) || (host && !hostOk) then .fail kPerm
    else .ok (bits l 63 16 * 0x10000 + va % size) host (bits l 3 2)

/-- A fault report of a translation that failed (R355, R378): for a core's transfer, its core and channel. -/
def State.mapFault (s : State) (ctx ch asid kind core va : Nat) : State :=
  s.notify 0 0x06 (some ctx) (some ch) (some (asid % 4096 + 4096 * kind)) (some core) (some va)

/-! ## Virtual ranges of the agents that do not freeze the chip -/

/-- A virtual range cut at every 64 KiB: offsets, lengths and addresses, with fuel. -/
def cutRange (va n : Nat) : Nat → Nat → List (Nat × Nat × Nat)
  | 0, _ => []
  | f + 1, off =>
    if n ≤ off then []
    else
      let len := min (n - off) (0x10000 - (va + off) % 0x10000)
      (off, len, va + off) :: cutRange va n f (off + len)

/-- The 64 KiB parts of a virtual range. -/
def rangeParts (va n : Nat) : List (Nat × Nat × Nat) := cutRange va n (n / 0x10000 + 2) 0

/-- The size of the leaf page that the TLB holds for an address. -/
def State.leafSize (s : State) (u asid va : Nat) : Nat :=
  match s.tlbFind u asid va with
  | some t => t.size
  | none => 0x10000

/-- The pieces of at most 512 bytes of a range that a 64 KiB part of it from lo up to hi carries (R356): a
piece that reaches over from the part before counts again where a page begins. -/
def partPieces (lo hi va size : Nat) : Nat :=
  ceilDiv hi 512 - (if lo = 0 ∨ va % size = 0 then lo / 512 else ceilDiv lo 512)

/-- Count the pieces of a part of a range (R356). -/
def State.countPart (s : State) (u asid off len va : Nat) : State :=
  s.tlbCount u asid va (partPieces off (off + len) va (s.leafSize u asid va))

/-- Translate a part of a range at once, for an agent whose misses freeze nothing (R358, R460). -/
def State.xlatePage (s : State) (u asid off len va : Nat) (write : Bool) : State × PageResult :=
  let x := (s.tlbLookup u asid va 0).getD (s.walk u asid va 0)
  (x.1.countPart u asid off len va, pageResult write true va x.2)

/-- Translate a range: the parts with their physical places, or the address that failed and its kind. -/
def State.xlateParts (s : State) (u asid : Nat) (write : Bool) :
    List (Nat × Nat × Nat) → State × Except (Nat × Nat) (List PageMap)
  | [] => (s, .ok [])
  | (off, len, va) :: t =>
    match s.xlatePage u asid off len va write with
    | (s, .ok pa host k) =>
      (match s.xlateParts u asid write t with
       | (s, .ok ps) => (s, .ok ({ off := off, len := len, va := va, res := .ok pa host k } :: ps))
       | (s, .error e) => (s, .error e))
    | (s, .fail k) => (s, .error (va, k))
    | (s, .waiting) => (s, .error (va, kNotPres))

/-- The map unit that serves a virtual address of an XATM, XOVL, XLAUNCH, the launch bus, trace or log
(R351, R460). -/
def unitOf (va : Nat) : Nat := bits va 19 16

/-- The bytes of translated parts: an error that the devices report is one of kind MEMERR, a listed block of device
memory one of kind POISON. -/
def State.partBytes (s : State) (ps : List PageMap) : Except Nat (List Byte) :=
  ps.foldl (fun r p =>
    match r, p.res with
    | .ok bs, .ok pa host _ =>
      if !host && s.memError pa then .error kMemErr
      else if !host && s.gddrPoisoned pa p.len then .error kPoison
      else .ok (bs ++ s.physBytes host pa p.len)
    | .ok _, _ => .error kNotPres
    | .error k, _ => .error k) (.ok [])

/-- Read n bytes of a virtual range; an unreadable block is an error of kind POISON. -/
def State.readVirt (s : State) (u asid va n : Nat) : State × Except (Nat × Nat) (List Byte) :=
  match s.xlateParts u asid false (rangeParts va n) with
  | (s, .error e) => (s, .error e)
  | (s, .ok ps) =>
    match s.partBytes ps with
    | .ok bs => (s, .ok bs)
    | .error _ => (s.takeFree, .error (va, kPoison))

/-- Write bytes to a virtual range; nothing is written where a page fails. -/
def State.writeVirt (s : State) (u asid va : Nat) (bs : List Byte) : State × Except (Nat × Nat) Unit :=
  match s.xlateParts u asid true (rangeParts va bs.length) with
  | (s, .error e) => (s, .error e)
  | (s, .ok ps) =>
    (ps.foldl (fun s p =>
      match p.res with
      | .ok pa host _ => s.physStore host pa ((bs.drop p.off).take p.len)
      | _ => s) s, .ok ())

/-! ## Failures reported -/

/-- A failed translation is reported by its map unit (R355); a core and a channel that the access does not have
are free values (log 17). An unreadable block is no failed translation. -/
def State.virtFault (s : State) (ctx asid : Nat) (core : Option Nat) (va kind : Nat) : State :=
  if kind = kPoison then s
  else s.notify 0 0x06 (some ctx) none (some (asid % 4096 + 4096 * kind)) core (some va)

/-- Read a virtual range, with a report of a failed translation. -/
def State.readFor (s : State) (u ctx asid : Nat) (core : Option Nat) (va n : Nat) :
    State × Except (Nat × Nat) (List Byte) :=
  match s.readVirt u asid (va % 2 ^ 52) n with
  | (s, .error (a, k)) => (s.virtFault ctx asid core a k, .error (a, k))
  | r => r

/-- Write a virtual range, with a report of a failed translation. -/
def State.writeFor (s : State) (u ctx asid : Nat) (core : Option Nat) (va : Nat) (bs : List Byte) :
    State × Except (Nat × Nat) Unit :=
  match s.writeVirt u asid (va % 2 ^ 52) bs with
  | (s, .error (a, k)) => (s.virtFault ctx asid core a k, .error (a, k))
  | r => r

end Sys2Proof.Machine
end

