-- ==== Sys2Proof/Machine/Transfers.lean ====
section
/-! DEFINITION. Transfers of the exchange engine (09 R275 to R291, R502): what their entries hold, where
their bytes go, how granules land, how a transfer fails and completes, and the identifiers of a channel. -/

namespace Sys2Proof.Machine

/-! ## What an entry holds -/

/-- The channel of an entry. -/
def Entry.chan (x : Entry) : Nat := (xferChan x.instr).getD 0

/-- Number k that an entry captured. An exchange entry captures its first address, its second address, its
count n and one more number. -/
def Entry.num (x : Entry) (k : Nat) : Nat := x.scalars.getD k 0

/-- The first address (R280). -/
def Entry.addr (x : Entry) : Nat := x.num 0

/-- The second address (R282). -/
def Entry.addr2 (x : Entry) : Nat := x.num 1

/-- The count n (R283). -/
def Entry.count (x : Entry) : Nat := x.num 2

/-- The qualifier of an instruction's source reads (R284): 0 W, 1 C, 2 N. -/
def xferQual (i : Instr) : Nat :=
  match i with
  | .xput _ _ _ _ q | .xget _ _ _ _ q | .xld _ _ _ _ q | .xst _ _ _ _ q | .xbc _ _ _ _ q => q.toNat
  | _ => 0

/-- The atomic operation and order codes of an XATM (R96). -/
def atomOf (i : Instr) : Option (Nat × Nat) :=
  match i with
  | .xatmGrp _ o _ _ _ m | .xatmGang _ o _ _ _ m | .xatmDev _ o _ _ _ m | .xatmSys _ o _ _ _ m =>
    some (o.toNat, m.toNat)
  | _ => none

/-- The tag of an address with the kind of a device resource (R280, R281): 0 to 2, or 256 plus the kind. -/
def addrKind (a : Nat) : Nat := if bits a 63 62 = 3 then 256 + bits a 61 56 else bits a 63 62

/-- The window offset of a tag 01 or tag 10 address. -/
def addrOff (a : Nat) : Nat := bits a 19 0

/-- The landing counter that an address names, if any (R280, R291). -/
def addrLand (a : Nat) : Option Nat := if bits a 23 23 = 1 then some (bits a 22 20) else none

/-- The logical core of a tag 01 address. -/
def addrCore (a : Nat) : Nat := bits a 40 30

/-- The lowest logical core and the number of members of a tag 10 address. -/
def addrLow (a : Nat) : Nat := bits a 50 40
def addrSize (a : Nat) : Nat := 2 ^ bits a 53 51

/-- The staging offset of an address. -/
def addrStg (a : Nat) : Nat := bits a 26 0

/-- The address of granule j of a transfer's range, which a fault record gives for a failure that arises there (R287;
log 89). -/
def Entry.granuleAddr (x : Entry) (j : Nat) : Nat :=
  if [1, 2, 257, 261, 262].contains (addrKind x.addr) then x.addr + 16 * j else x.addr

/-- The virtual address of a tag 00 address. -/
def addrVa (a : Nat) : Nat := bits a 51 0

/-! ## Gangs and logical cores -/

/-- The context of a core's task. -/
def Core.ctx (c : Core) : Nat :=
  match c.task with
  | some t => t.ctx
  | none => 0

/-- The gang in which physical core p runs. -/
def State.gangOf (s : State) (p : Nat) : Option Gang := s.dist.gangs.find? (fun g => g.live.contains p)

/-- The gang's size less 1 and the lowest logical core of a core's gang (R388). -/
def Core.gangSize (c : Core) : Nat := bits c.csr.gang.toNat 21 11 + 1
def Core.gangOrigin (c : Core) : Nat := c.csr.coreL.toNat - bits c.csr.gang.toNat 10 0

/-- The physical core that holds logical core l for the task of core c (R289, R296): the core itself, or a
member of its gang that has not ended. -/
def State.memberCore (s : State) (c : Core) (l : Nat) : Option Nat :=
  if l = c.csr.coreL.toNat then some c.phys
  else
    match s.gangOf c.phys with
    | none => none
    | some g =>
      match g.members[l - g.origin]? with
      | some p => if g.origin ≤ l ∧ g.live.contains p then some p else none
      | none => none

/-- A core is a straggler in the running exchange (R368). -/
def State.straggles (s : State) (p : Nat) : Bool := setHas s.iris.smask p

/-! ## Granules -/

/-- Where a granule of 16 bytes lies: a core's window or staging. -/
inductive Place where
  | window (core off : Nat)
  | staging (granule : Nat)
deriving DecidableEq, Repr

/-- Granule j of a handle's bytes, by its core-local address (R206, R283). -/
def hGranule (h : HandleBits) (j : Nat) : Nat := hByteAddr h (16 * j)

/-- The granules of piece k of n bytes: their places in the range. -/
def pieceGranules (n k : Nat) : List Nat := List.range' (32 * k) (min (32 * (k + 1)) (n / 16) - 32 * k)

/-- How many pieces of at most 512 bytes carry n bytes (R276). -/
def pieceCount (n : Nat) : Nat := ceilDiv n 512

/-- Where the granules of a piece go (R286 step 1): nowhere for a transfer without a destination in a core
or in staging. -/
def State.destPlaces (s : State) (c : Core) (x : Entry) (k : Nat) : List Place :=
  let gs := pieceGranules x.count (k % 65536)
  let here := gs.map (fun j => Place.window c.phys (hGranule (x.h 0) j))
  match x.instr with
  | .xput .. =>
    (match s.memberCore c (addrCore x.addr) with
     | some p => gs.map (fun j => .window p (addrOff x.addr + 16 * j))
     | none => [])
  | .xbc .. =>
    (match s.memberCore c (addrLow x.addr + k / 65536) with
     | some p => gs.map (fun j => .window p (addrOff x.addr + 16 * j))
     | none => [])
  | .xget .. | .xld .. | .xldg .. | .xdec .. => here
  | .xgth .. =>
    (pieceGranules (hRowBytes (x.h 0)) (k % 65536)).map (fun j =>
      .window c.phys (hRowAddr (x.h 0) (k / 65536) (16 * j)))
  | .xst .. => gs.map (fun j => .staging (addrStg x.addr / 16 + j))
  | .xatmGrp .. | .xatmGang .. | .xatmDev .. | .xatmSys .. => [.window c.phys (hBase (x.h 0) + 16)]
  | _ => []

/-- The landing counter that a piece's bytes subtract from in the core that receives them (R291). -/
def landCounter (x : Entry) : Option Nat :=
  match x.instr with
  | .xput .. | .xbc .. | .xget .. | .xldg .. => if addrKind x.addr < 3 then addrLand x.addr else none
  | _ => none

/-- Subtract n landed bytes from a landing counter (R291). -/
def Core.landed (c : Core) (l : Option Nat) (n : Nat) : Core :=
  match l with
  | none => c
  | some k => { c with csr := { c.csr with
      land := c.csr.land.setIfInBounds k ((c.csr.land[k]?.getD 0) - BitVec.ofNat 24 n) } }

/-- The poisoned words (0 and 1) of a granule of a core's window. -/
def Core.badWords (c : Core) (o : Nat) : List Nat := [0, 1].filter (fun k => c.windowBad (o + 8 * k))

/-- A granule lands in scratchpad or the accumulators: bytes, poison, full bit, signature, landing counter
(R285, R291, R456). -/
def Core.landMem (c : Core) (o : Nat) (bs : List Byte) (bad : List Nat) (l : Option Nat) : Core :=
  let c := { c with
    mem := writeBytes c.mem o bs
    poison := [0, 1].foldl (fun p k => setPut p (o / 8 + k) (bad.contains k)) c.poison
    full := if o < 0x80000 then setAdd c.full (o / 16) else c.full }
  (c.sign o bs (!bad.isEmpty)).landed l 16

/-- Two held writes for a granule of the register window, the CSR image, the full/empty bits or instruction
memory (R288, R315). -/
def Core.holdWrite (c : Core) (source : Core) (x : Entry) (o : Nat) (bs : List Byte) (bad : List Nat)
    (l : Option Nat) : Core :=
  let one := fun (k : Nat) (hs : List HeldWrite) => insertHeld
    { source := source.csr.coreL.toNat, chan := x.chan, id := x.xid.toNat, off := o + 8 * k
      data := (bs.drop (8 * k)).take 8, poisoned := bad.contains k } hs
  (({ c with heldWrites := one 1 (one 0 c.heldWrites) } : Core).sign o bs (!bad.isEmpty)).landed l 16

/-- A granule lands in the parameter window: poisoned words stay poisoned (R345). -/
def Core.landParam (c : Core) (o : Nat) (bs : List Byte) (bad : List Nat) (l : Option Nat) : Core :=
  let c := c.putMem o bs
  (({ c with poison := bad.foldl (fun p k => setAdd p (o / 8 + k)) c.poison } : Core).sign o bs (!bad.isEmpty)).landed l 16

/-- A granule lands at an offset of core p's window: in memory at once, or held (R288). -/
def State.landWindow (s : State) (p o : Nat) (source : Core) (x : Entry) (bs : List Byte) (bad : List Nat) :
    State :=
  s.onCoreAt p (fun c =>
    if o < 0xA0000 then c.landMem o bs bad (landCounter x)
    else if o < 0xA1000 then c.landParam o bs bad (landCounter x)
    else c.holdWrite source x o bs bad (landCounter x))

/-- A granule of a place is full (R285). -/
def State.placeFull (s : State) : Place → Bool
  | .window p o => decide (o < 0x80000) && setHas (s.coreAt p).full (o / 16)
  | .staging g => s.stgFull g

/-- Poison lands at a place of a failed transfer (R286 step 1): accumulators, and scratchpad and staging
granules that are empty. The parameter window, which step 1 does not name, is not written (DEDUCED, log 105). -/
def State.poisonPlace (s : State) (source : Core) (x : Entry) (pl : Place) : State :=
  if s.placeFull pl then s
  else
    match pl with
    | .window p o =>
      if o < 0xA0000 then (s.landWindow p o source x (s.freeGranule o) [0, 1]).takeFree else s
    | .staging g => (s.stgPut g (s.freeGranule (16 * g)) [0, 1]).takeFree

/-- The contributions of a transfer that await an acknowledgement are forgotten, as it fails or is removed (R441). -/
def State.dropWaiting (s : State) (p : Nat) (which : Contribution → Bool) : State :=
  { s with peer := { s.peer with waiting := s.peer.waiting.filter (fun w => !(w.core == p && which w)) } }

/-! ## Begun transfers -/

/-- The begun transfer of a channel and identifier. -/
def Core.xfer (c : Core) (ch : Nat) (id : Word) : Option Xfer :=
  c.xfers.find? (fun x => x.entry.chan == ch && x.entry.xid == id)

/-- Replace the begun transfer of the same channel and identifier. -/
def Core.putXfer (c : Core) (x : Xfer) : Core :=
  { c with xfers := c.xfers.map (fun y =>
      if y.entry.chan == x.entry.chan && y.entry.xid == x.entry.xid then x else y) }

/-- Change the begun transfer of a channel and identifier of core p. -/
def State.onXfer (s : State) (p ch : Nat) (id : Word) (f : Xfer → Xfer) : State :=
  s.onCoreAt p (fun c =>
    match c.xfer ch id with
    | some x => c.putXfer (f x)
    | none => c)

/-! ## Failure -/

/-- Record the failure of a transfer (R287): the first since the record was cleared writes it, each later one
counts; VSTAT.XFAIL is set. -/
def Core.recordFault (c : Core) (ch : Nat) (id : Word) (kind member addr : Nat) : Core :=
  let r := (c.faultRec[ch]?.getD 0).toNat
  let n := bits r 63 48
  let r' := if n = 0 then id.toNat + 2 ^ 32 * kind + 2 ^ 40 * member + 2 ^ 48 + 2 ^ 64 * (addr % 2 ^ 64)
    else r + (if n < 0xFFFF then 2 ^ 48 else 0)
  { c with faultRec := c.faultRec.setIfInBounds ch (BitVec.ofNat 128 r') }.setVstat (2 ^ (8 + ch))

/-- The record of a transfer that has failed with a kind takes a lower member at which it fails so again (R287,
R298). -/
def Core.lowerMember (c : Core) (ch : Nat) (id : Word) (kind member : Nat) : Core :=
  let r := (c.faultRec[ch]?.getD 0).toNat
  if bits r 63 48 ≠ 0 ∧ bits r 31 0 = id.toNat ∧ bits r 39 32 = kind ∧ member < bits r 47 40 then
    { c with faultRec := c.faultRec.setIfInBounds ch (BitVec.ofNat 128 (r - 2 ^ 40 * (bits r 47 40 - member))) }
  else c

/-- The fault record of a channel after a step of a core cycle (R287): `start` before the cycle, `old` before the step,
`now` after it, and `new` what the step's own failure writes into a clear record. Where the cycle has written the
record first, it describes the failure of the lowest kind, and of those the one nearest above XDONE. -/
def cycleRecord (xdone : Word) (start old new now : BitVec 128) : BitVec 128 :=
  let far := fun (r : BitVec 128) => (BitVec.ofNat 32 r.toNat - xdone).toNat
  let kind := fun (r : BitVec 128) => bits r.toNat 39 32
  if start = 0 ∧ old ≠ 0 ∧ new ≠ 0 ∧ (kind new < kind old ∨ (kind new = kind old ∧ far new < far old)) then
    BitVec.ofNat 128 (new.toNat - 2 ^ 48 * bits new.toNat 63 48 + 2 ^ 48 * bits now.toNat 63 48)
  else now

/-- The fault records of a core after a step of a core cycle. -/
def Core.cycleRecords (c : Core) (start old new : Core) : Core :=
  { c with faultRec := Vector.ofFn (fun (k : Fin 4) =>
      cycleRecord (c.csr.xdone[k.val]?.getD 0) (start.faultRec[k.val]?.getD 0) (old.faultRec[k.val]?.getD 0)
        (new.faultRec[k.val]?.getD 0) (c.faultRec[k.val]?.getD 0)) }

/-- A transfer of core p has failed (R287): it is recorded once. -/
def State.noteFail (s : State) (p : Nat) (x : Entry) (kind member addr : Nat) : State :=
  match (s.coreAt p).xfer x.chan x.xid with
  | none => s
  | some y =>
    if y.counted then s.onCoreAt p (fun c => c.lowerMember x.chan x.xid kind member)
    else
      (s.onXfer p x.chan x.xid (fun y => { y with counted := true })).onCoreAt p
        (fun c => c.recordFault x.chan x.xid kind member addr)

/-- TRANSFER_FAILURE (R286) with the record's member and address: the destination bytes not yet written are
poisoned where step 1 says so, and no piece is left to land. -/
def State.failAt (s : State) (p : Nat) (x : Entry) (kind member addr : Nat) : State :=
  match (s.coreAt p).xfer x.chan x.xid with
  | none => s
  | some y =>
    let s := s.noteFail p x kind member addr
    let s := y.pieces.foldl (fun s k =>
      (s.destPlaces (s.coreAt p) x k).foldl (fun s pl => s.poisonPlace (s.coreAt p) x pl) s) s
    let s := if y.stage = 1 then s.onCoreAt p (fun c => { c with overlay := none }) else s
    (s.onXfer p x.chan x.xid (fun y => { y with pieces := [], acks := [], failed := true })).dropWaiting p
      (fun w => w.chan == x.chan && w.id == x.xid)

/-- TRANSFER_FAILURE of a transfer of core p (R286). -/
def State.fail (s : State) (p : Nat) (x : Entry) (kind : Nat) : State := s.failAt p x kind 0xFF x.addr

/-- A transfer that is refused before any piece is sent, and writes nothing (R286). -/
def State.refuse (s : State) (p : Nat) (x : Entry) (kind addr : Nat) : State :=
  (s.onXfer p x.chan x.xid (fun y => { y with pieces := [], acks := [], failed := true })).noteFail p x kind 0xFF addr

/-! ## Identifiers and completion -/

/-- Identifier x of a channel is done (R278). -/
def Core.idDone (c : Core) (ch : Nat) (x : Word) : Bool :=
  decide ((vec4 c.csr.xdone ch - x - 1).toNat < 2 ^ 31)

/-- The begun entry of a channel and identifier is marked finished. -/
def finishBegun (ch : Nat) (id : Word) : List Entry → List Entry
  | [] => []
  | x :: t =>
    if x.stage = .begun ∧ xferChan x.instr = some ch ∧ x.xid = id then { x with stage := .finished } :: t
    else x :: finishBegun ch id t

/-- A transfer completes (R277): its entry is finished, the tokens of the leading finished entries are
produced (R38), XDONE advances (R502), and GVOID is set where some granule had no present member (R297). -/
def Core.completeXfer (c : Core) (x : Xfer) : Core :=
  let e := x.entry
  let c := { c with
    engE := drainFinished c.engE (finishBegun e.chan e.xid c.engE.queue)
    xfers := c.xfers.filter (fun y => !(y.entry.chan == e.chan && y.entry.xid == e.xid)) }
  let c := c.advanceDone e.chan
  if x.void then c.setVstat 2 else c

/-- Nothing of a begun transfer remains: it can complete (R277). -/
def Xfer.landedAll (x : Xfer) : Bool :=
  x.pieces.isEmpty && x.deferred.isEmpty && x.acks.isEmpty &&
  (x.failed || x.pages.all (fun p => p.res != .waiting)) &&
  (match x.entry.instr with
   | .xovl .. => x.failed || x.stage == 2
   | _ => true)

end Sys2Proof.Machine
end

