-- ==== Sys2Proof/Machine/Teardown.lean ====
section
/-! DEFINITION. How a core becomes ABSENT with its work settled (13 R392), and the tear-down of a context by
CTXKILL, a context fault or a device fault (R410, R411, R426). -/

namespace Sys2Proof.Machine

/-! ## Leaving -/

/-- A core holds work that is discarded when its task ends (R392): unbegun exchange instructions, deferred
transfers, queue entries. -/
def Core.holdsWork (c : Core) : Bool :=
  c.engE.queue.any (fun x => x.stage == .queued) || c.xfers.any (fun x => !x.deferred.isEmpty) ||
  c.queues.toList.any (fun q => !q.isEmpty)

/-- The unbegun exchange instructions and the deferred transfers of a core are removed, and its queue
registers are emptied (R392). -/
def Core.dropWork (c : Core) : Core :=
  let gone := c.xfers.filter (fun x => !x.deferred.isEmpty)
  { c with
    engE := { c.engE with queue := c.engE.queue.filter (fun e =>
      e.stage != .queued && !gone.any (fun x => x.entry == e)) }
    xfers := c.xfers.filter (fun x => x.deferred.isEmpty)
    queues := Vector.replicate 4 [] }

/-- A deferred piece of a transfer goes to, or comes from, physical core p. -/
def State.pieceNames (s : State) (c : Core) (x : Entry) (k p : Nat) : Bool :=
  match x.instr with
  | .xput .. | .xget .. => s.memberCore c (addrCore x.addr) == some p
  | .xbc .. => s.memberCore c (addrLow x.addr + k / 65536) == some p
  | _ => false

/-- The transfers of core q that are deferred for core p fail with RESOURCE (R392). -/
def State.failDeferredFor (s : State) (p q : Nat) : State :=
  let c := s.coreAt q
  c.xfers.foldl (fun s x =>
    if x.deferred.any (fun k => s.pieceNames c x.entry k p) then
      let s := s.noteFail q x.entry kResource 0xFF x.entry.addr
      s.onXfer q x.entry.chan x.entry.xid (fun y =>
        { y with deferred := y.deferred.filter (fun k => !s.pieceNames c x.entry k p) })
    else s) s

/-- The other members of core p's gang. -/
def State.partners (s : State) (p : Nat) : List Nat :=
  match s.gangOf p with
  | some g => g.live.filter (· != p)
  | none => []

/-- MEMBER_WORK_SETTLE (R392) for core p. -/
def State.settleMember (s : State) (p : Nat) : State :=
  ((s.partners p).foldl (fun s q => s.failDeferredFor p q) s).onCoreAt p Core.dropWork

/-- The bits of a mirror entry that are stored (R394). -/
def mirrorBits (v : Nat) : Nat := v % 2 ^ 11 + bits v 22 16 * 2 ^ 16

/-- Store a mirror entry. -/
def State.putMirror (s : State) (l v : Nat) : State :=
  { s with dist := { s.dist with mirror := tabPut s.dist.mirror l (mirrorBits v + 1) } }

/-- The mirror writes held until a physical core is ABSENT are applied once it is (R394). -/
def State.releaseMirror (s : State) (p : Nat) : State :=
  let due := s.dist.heldMirror.filter (fun w => s.mirrorEntry w.1 % 2 ^ 11 == p)
  let s := due.foldl (fun s w => s.putMirror w.1 w.2.toNat) s
  { s with dist := { s.dist with heldMirror := s.dist.heldMirror.filter (fun w => !due.contains w) } }

/-- An engine whose work is dropped is idle (R42); its counters stand until the next launch (R478). -/
def Engine.dropped (g : Engine) : Engine := { Engine.idle with iss := g.iss, done := g.done }

/-- A core holds no task any more (R55): a halt ends with it; its planes are EMPTY (R243). Held writes of a core that is
torn down are dropped, for it passes no SYNC any more (DESIGN CHOICE, log 96). -/
def Core.leave (c : Core) : Core :=
  { c with
    pst := .absent, halted := false, held := none, task := none, pend := .none, sigLeft := 0
    engV := c.engV.dropped, engM := c.engM.dropped, engL := c.engL.dropped, engE := c.engE.dropped
    xfers := [], heldWrites := [], overlay := none, vmet := none, vrows := [], vpushed := false, lmet := none
    queues := Vector.replicate 4 []
    matrix := { c.matrix with active := .reset, shadow := .reset, met := none, mark := none, ahead := [] }
    dbg := { c.dbg with stepping := none, asked := none } }

/-- A core leaves the Iris's masks (R362). -/
def Iris.remove (i : Iris) (p : Nat) : Iris :=
  { i with pmask := setDel i.pmask p, smask := setDel i.smask p, inExchange := setDel i.inExchange p
           deliver := setDel i.deliver p }

/-- Core p becomes ABSENT. -/
def State.makeAbsent (s : State) (p : Nat) : State :=
  let s := (s.onCoreAt p Core.leave).dropWaiting p (fun _ => true)
  ({ s with iris := s.iris.remove p } : State).releaseMirror p

/-! ## Tear-down -/

/-- A piece of work that completes a record of queue q. -/
def Chore.completes (q : Nat) : Chore → Bool
  | .complete k _ _ _ => k == q
  | .node .. | .append .. | .rungDown .. => false

/-- The graph node of the record at a ring index, where there is one, is left to the microcode (R402). -/
def State.closeNode (s : State) (q idx : Nat) : State :=
  if s.dist.nodes.any (fun n => n.queue == q && n.idx == idx) then s.chore (.node q idx 0) else s

/-- Complete the records of a queue from OLDEST up to TAIL with a status, the graph nodes of their tasks with them;
HEAD and OLDEST become TAIL, and EN becomes 0 (R402, R410). The appends that the queue holds are tried again. -/
def State.closeQueue (s : State) (status : Nat) (q a : Nat) : State :=
  let old := s.qOldest a
  let n := min ((s.qTail a + 2 ^ 32 - old) % 2 ^ 32) (s.qSize a)
  let s := (List.range n).foldl (fun s k => s.complete (s.gddrLE (s.recordAddr a (old + k) + 0x3C) 2) status) s
  let f := s.qFlags a
  let s := ((s.gddrPut (a + 0x0C) 4 (s.qTail a)).gddrPut (a + 0x14) 4 (s.qTail a)).gddrPut (a + 0x1C) 2 (f - f % 2)
  let s := { s with dist := { s.dist with
    completed := s.dist.completed.filter (fun x => x.1 != q), chores := s.dist.chores.filter (fun c => !c.completes q) } }
  let s := (List.range n).foldl (fun s k => s.closeNode q ((old + k) % 2 ^ 32)) s
  if s.dist.heldAppends.any (fun h => h.queue == q) then s.chore (.append q) else s

/-- The cores that hold a task of a context. -/
def State.coresOf (s : State) (c : Nat) : List Nat :=
  (s.cores.filter (fun k => (k.task.map (·.ctx)) == some c)).map (·.phys)

/-- Tear-down wins over an XLAUNCH that meets it (R412): the record whose bytes stand ready is not appended, and its
completion record gets STATUS 2, in a context fault STATUS 1 (R411). -/
def State.cutLaunch (s : State) (c : Core) (y : Xfer) (status : Nat) : State :=
  let os := (List.range 4).map (fun j => hRowAddr (y.entry.h 0) 0 (16 * j))
  match y.entry.instr with
  | .xlaunch .. =>
    if y.pieces.isEmpty ∨ y.pages.any (fun m => m.res == .waiting) ∨
        os.any (fun o => (c.firstEmpty o 16).isSome || (c.firstPoison o 16).isSome) then s
    else s.complete (readLE c.mem (hRowAddr (y.entry.h 0) 0 0x3C) 2) status
  | _ => s

/-- The transfers in flight of core p complete as failed (R286, R410), with the kind that log 72 names. -/
def State.failFlights (s : State) (p kind status : Nat) : State :=
  (s.coreAt p).xfers.foldl (fun s x =>
    if x.pieces.isEmpty && x.acks.isEmpty then s else (s.cutLaunch (s.coreAt p) x status).fail p x.entry kind) s

/-- A context's staging granules are emptied (R350, R410). -/
def State.emptyStaging (s : State) (c : Nat) : State :=
  (List.range 16).foldl (fun s q =>
    let r := s.stgRange q c
    let lo := q * 0x80000 + r.1 * 0x1000
    { s with map := { s.map with
        stgFull := setDelRange s.map.stgFull lo (lo + min r.2 (128 - r.1) * 0x1000) } }) s

/-- A codec session of a context ends (R426): EN is cleared, the queues are emptied, and the picture in
progress is dropped. -/
def Codec.abandon (c : Codec) : Codec :=
  { c with en := false, stage := .idle, planes := Vector.replicate 3 .reset, coded := [], ready := [], reading := false, damaged := false
           held := false }

/-- The sessions of a context end (R426). -/
def State.dropCodecs (s : State) (c : Nat) : State :=
  { s with codecs := s.codecs.map (fun e => if e.en && bits e.cctx.toNat 5 0 == c then e.abandon else e) }

/-- A launch of a context under way ends with CTXDEAD (R412). -/
def Distributor.cancelLaunch (d : Distributor) (c : Nat) : Distributor :=
  match d.launch with
  | none => d
  | some l => if l.gang.ctx = c then { d with launch := none, lbresult := 1 } else d

/-- Replace a context's block of the debug unit. -/
def State.putDebugCtx (s : State) (c : Nat) (x : DebugCtx) : State :=
  { s with debugUnit := { s.debugUnit with ctxs := s.debugUnit.ctxs.setIfInBounds c x } }

/-- The common part of CTXKILL and a context fault (R410, R411): the context's cores become ABSENT, its
staging is emptied with the fills and write-backs that it accepted, its queues are closed with a status, its
gangs, its launch and its codec sessions end; of an END event that is held the record is completed by now. Its exchanges are counted anew from its next launch (R452). -/
def State.tearDown (s : State) (c status : Nat) : State :=
  let ps := s.coresOf c
  let s := ps.foldl (fun s p => s.failFlights p kResource status) s
  let s := ps.foldl (fun s p => s.settleMember p) s
  let s := ps.foldl (fun s p => s.makeAbsent p) s
  let s := s.emptyStaging c
  let s := { s with
    dist := { s.dist.cancelLaunch c with
      gangs := s.dist.gangs.filter (fun g => g.ctx != c)
      ended := s.dist.ended.map (fun (e : Gang × Bool) => if e.1.ctx = c then (e.1, false) else e) }
    map := { s.map with
      fills := s.map.fills.filter (fun f => f.ctx != c)
      backs := s.map.backs.filter (fun f => f.ctx != c)
      walks := s.map.walks.filter (fun w => !ps.contains w.core) } }
  let s := (s.dropCodecs c).putDebugCtx c { s.debugCtx c with begun := none }
  (s.queuesOf c).foldl (fun s x => s.closeQueue status x.1 x.2) s

/-- A context fault of a context (R411), reported for a core with the CAUSE, EPC and ETVAL of the event (R198): the CFAULT
event carries the first two (R378). -/
def State.faultContext (s : State) (c core : Nat) (cause epc etval : Word) : State :=
  let s := s.tearDown c 1
  ({ s with dist := { s.dist with report := some { core := core, cause := cause, epc := epc, etval := etval } } } : State).notify 0 0x04 (some c) none none (some core) (some (cause.toNat + 2 ^ 32 * epc.toNat))

/-- CONTEXT_FAULT (R411) for the context of core p. A core without a task only becomes ABSENT. -/
def contextFault (p : Nat) (cause epc etval : Word) (s : State) : State :=
  match (s.coreAt p).task with
  | none => s.makeAbsent p
  | some t => s.faultContext t.ctx p cause epc etval

/-- A context is LIVE (R381). -/
def State.ctxLive (s : State) (c : Nat) : Bool := bits (s.ctxWord c 0) 0 0 == 1

/-- Clear LIVE of a context. -/
def State.clearLive (s : State) (c : Nat) : State :=
  { s with dist := { s.dist with
      contexts := s.dist.contexts.setIfInBounds c ((s.dist.contexts[c]?.getD 0) &&& ~~~1) } }

/-- A context fault for a core that is not at a trap: the CAUSE, EPC and ETVAL of its report are not stated
(log 17). -/
def State.faultOpen (s : State) (c core : Nat) : State :=
  let free := fun (k : Nat) => BitVec.ofNat 32 (Config.freeNat (s.nfree + k))
  (s.faultContext c core (free 0) (free 1) (free 2)).takeFree.takeFree.takeFree

/-- A context fault for the context that holds core p (R344, R370, R371); a core without a task holds none. -/
def State.faultCore (s : State) (p : Nat) : State :=
  match (s.coreAt p).task with
  | none => s
  | some t => s.faultOpen t.ctx p

/-- DEVICE_FAULT (R411): every context that exists is faulted. The core that its CFAULT events name is not
stated (log 17). -/
def State.deviceFault (s : State) : State :=
  (List.range 64).foldl (fun s c =>
    if s.ctxLive c || !(s.coresOf c).isEmpty then (s.faultOpen c (Config.freeNat (s.nfree + 3))).takeFree else s) s

end Sys2Proof.Machine
end

