-- ==== Sys2Proof/Machine/Assists.lean ====
section
/-! DEFINITION. The work distributor's assists (13 R379, R382, R393, R394, R397, R403 to R405, R407, R410):
doorbells, pre-emption requests, tear-down, the slack sorter, placement, the decision log's commits, tile
scoreboards and mirror writes. -/

namespace Sys2Proof.Machine

/-! ## Doorbells, tear-down, pre-emption requests -/

/-- QBELL (R379): DOORBELL for a queue. -/
def State.ringBell (s : State) (q : Nat) : State := s.notify (queueHart q) 0x01 none none (some q) none none

/-- QBELL (R379, R384). -/
def execQbell (q : BitVec 32) (s : State) : Out := s.request 1 (fun s => s.ringBell (q.toNat % 4096))

/-- Tear-down of a context by CTXKILL (R410): its work ends, its records complete with STATUS 2, and LIVE is
cleared. CTXBUSY is 0 again when the step is over. -/
def State.killContext (s : State) (c : Nat) : State := (s.tearDown c 2).clearLive c

/-- CTXKILL (R379, R410). -/
def execCtxkill (v : BitVec 32) (s : State) : Out := s.request 1 (fun s => s.killContext (v.toNat % 64))

/-- The running gang of an origin that may be flagged (R407). -/
def State.flaggable (s : State) (o : Nat) : Option Gang :=
  s.dist.gangs.find? (fun g => g.origin == o && !g.nopre)

/-- Flag a gang for pre-emption, or cancel its flag (R407); any other origin sets DSTAT.PBAD. -/
def State.flagGang (s : State) (o : Nat) (b : Bool) : State :=
  match s.flaggable o with
  | none => { s with dist := { s.dist with pbad := true } }
  | some g => { s with dist := { s.dist with
      gangs := s.dist.gangs.map (fun x => if x = g then { x with flagged := b } else x) } }

/-- A write to PREQ (R379, R407): bit 16 cancels. -/
def State.writePreq (s : State) (v : Word) : State := s.flagGang (bits v.toNat 10 0) (!wbit v 16)

/-- PREQ (R407). -/
def execPreq (v : BitVec 32) (s : State) : Out := s.request 1 (fun s => s.writePreq v)

/-- PREQ that cancels a request (R379). -/
def execPreqCancel (v : BitVec 32) (s : State) : Out := s.request 1 (fun s => s.flagGang (bits v.toNat 10 0) false)

/-! ## Placement -/

/-- PLSHAPE (R379, R393): a search for a gang's shape and context. -/
def execPlshape (v : BitVec 32) (s : State) : Out :=
  s.request 1 (fun s => { s with dist := { s.dist with plshape := some (v &&& 0x1FFFF) } })

/-! ## The slack sorter -/

/-- Insert (SSKEY, tag) into the sorter (R397): a full one refuses it. -/
def State.sorterInsert (s : State) (tag : Word) : State :=
  if 256 ≤ s.dist.sorter.length then { s with dist := { s.dist with ssFull := true } }
  else { s with dist := { s.dist with sorter := s.dist.sorter ++ [(s.dist.sskey.toNat, tag, false)] } }

/-- SSINS (R379, R397). -/
def execSsins (v : BitVec 32) (s : State) : Out := s.request 1 (fun s => s.sorterInsert v)

/-- Remove the top entry of the sorter (R379). -/
def State.sorterPop (s : State) : State :=
  match topEntry s.dist.sorter with
  | none => s
  | some x => { s with dist := { s.dist with sorter := s.dist.sorter.erase x } }

/-- SSPOP (R379). -/
def execSspop (s : State) : Out := s.request 1 (fun s => s.sorterPop)

/-- SSDEL (R379): every entry that holds the tag is removed. -/
def State.sorterDelete (s : State) (tag : Word) : State :=
  { s with dist := { s.dist with sorter := s.dist.sorter.filter (fun e => e.2.1 != tag) } }

/-- SSDEL (R379). -/
def execSsdel (v : BitVec 32) (s : State) : Out := s.request 1 (fun s => s.sorterDelete v)

/-! ## The decision log -/

/-- A write to DLW3 commits the record of DLW0 to DLW3 (R405): the kinds of the microcode only. -/
def State.commitLog (s : State) (v : Word) : State :=
  let w := s.dist.dlw.setIfInBounds 3 v
  let s := { s with dist := { s.dist with dlw := w } }
  let kind := bits (vec4 w 0).toNat 7 0
  if [4, 5, 6, 8].contains kind then
    s.logWrite kind ((List.range 4).flatMap (fun k => bytesOfNat 4 (vec4 w k).toNat))
  else { s with dist := { s.dist with dlbad := true } }

/-- DLW3_COMMIT (R405). -/
def execDlw3Commit (v : BitVec 32) (s : State) : Out := s.request 1 (fun s => s.commitLog v)

/-- A write to DLSIZE (R379): DLHEAD counts from it. -/
def State.sizeLog (s : State) (v : Word) : State := { s with dist := { s.dist with dlsize := v, dlhead := 0 } }

/-- DLSIZE_WRITE (R379, R404). -/
def execDlsizeWrite (v : BitVec 32) (s : State) : Out := s.request 1 (fun s => s.sizeLog v)

/-! ## Tile scoreboards -/

/-- A write to SBCFG clears both planes (R403). -/
def State.writeSbcfg (s : State) (n : Nat) (v : Word) : State :=
  if 16 ≤ n then s
  else (s.putBoard n { s.board n with cfg := v &&& 0x80003FFF, plane0 := [], plane1 := [], freed := [] }).evalBoard n

/-- SBCFG_WRITE (R403). -/
def execSbcfgWrite (n : Nat) (v : BitVec 32) (s : State) : Out := s.request 1 (fun s => s.writeSbcfg n v)

/-- A tile of plane 1 retires (R403); coordinates outside the grid are discarded. -/
def State.retireTile (s : State) (n : Nat) (v : Word) : State :=
  let b := s.board n
  let x := bits v.toNat 6 0
  let y := bits v.toNat 22 16
  if 16 ≤ n ∨ b.width ≤ x ∨ b.height ≤ y then s
  else (s.putBoard n { b with plane1 := setAdd b.plane1 (tileOf x y) }).evalBoard n

/-- SBRET (R403). -/
def execSbret (n : Nat) (v : BitVec 32) (s : State) : Out := s.request 1 (fun s => s.retireTile n v)

/-- A new pass (R403): plane 1 becomes plane 0, and every tile is evaluated again. -/
def State.passBoard (s : State) (n : Nat) : State :=
  let b := s.board n
  if 16 ≤ n then s
  else (s.putBoard n { b with plane0 := b.plane1, plane1 := [], freed := [], passes := b.passes + 1 }).evalBoard n

/-- SBPASS (R403). -/
def execSbpass (n : Nat) (s : State) : Out := s.request 1 (fun s => s.passBoard n)

/-- SBREL (R403): the release popped. -/
def execSbrel (n : Nat) (s : State) : Out := s.request 1 (fun s => s.popRelease n)

/-! ## The mirror table -/

/-- A write to a mirror entry (R394): held while the entry's physical core holds a task. -/
def State.writeMirror (s : State) (l : Nat) (v : Word) : State :=
  if 1536 ≤ l then s
  else if (s.coreAt (bits (s.mirrorEntry l) 10 0)).task.isSome then
    { s with dist := { s.dist with heldMirror := s.dist.heldMirror ++ [(l, v)] } }
  else s.putMirror l v.toNat

/-- MIRROR_WRITE (R394). -/
def execMirrorWrite (l : Nat) (v : BitVec 32) (s : State) : Out := s.request 1 (fun s => s.writeMirror l v)

/-! ## Residency -/

/-- A residency set is filled (R396). -/
def State.resident (s : State) (gs : List Nat) : Bool := gs.all s.stgFull

/-- RESIDENCY_FILLED (R396): watched set k is filled, and RESIDENT follows. -/
def execResidencyFilled (k : Nat) (s : State) : Out :=
  onDevice s (fun s => (s.dist.watches[k]?).bind (fun w =>
    if s.resident w.granules && s.eventRoom 0 then
      some (State.notify { s with dist := { s.dist with watches := s.dist.watches.eraseIdx k } } 0 0x0A none none none
        (some w.idx.toNat) none)
    else none))

end Sys2Proof.Machine
end

