-- ==== Sys2Proof/Machine/Front.lean ====
section
/-! DEFINITION. How the front end runs one instruction (R67 steps 5 to 9): guard, privilege, phase, token
waits, execution; holding (R177, R185), raising a trap (R194, R198), retiring. -/

namespace Sys2Proof.Machine

/-- A precise trap of the current core: entered in user mode, a double trap in supervisor mode (R198). -/
def raise (t : Trap) (s : State) : State :=
  if s.core.csr.priv then
    contextFault s.core.phys t.cause (t.epc.zeroExtend 32) t.etval
      { s with core := { s.core with held := none } }
  else { s with core := s.core.enterTrap s.det t }

/-! ## Token waits -/

/-- A token wait is satisfied (R39). -/
def waitDone (c : Core) (w : Wait) : Bool :=
  let v := (w.iss - BitVec.ofNat 32 w.dist - (c.eng w.eng).done).toNat
  v == 0 || 2 ^ 31 ≤ v

/-- One wait field of a TOK word, captured now (R39, R77). -/
def captureField (c : Core) (f : BitVec 9) : List Wait :=
  let d := f.toNat % 128
  let e := engOfCode (f.toNat / 128)
  if d = 127 then [] else [{ eng := e, iss := (c.eng e).iss, dist := d }]

/-- The waits of an instruction, captured now (R78). -/
def captureWaits (c : Core) (h : Hdr) : List Wait :=
  match h.tok with
  | none => []
  | some t => captureField c t.wa ++ captureField c t.wb ++ captureField c t.wc

/-- The waits of a scalar instruction: those captured when it first reached step 8, while the front end
holds it (R177). -/
def scalarWaits (c : Core) (i : Instr) (h : Hdr) : List Wait :=
  match c.held with
  | some x => if x.instr = i then x.waits else captureWaits c h
  | none => captureWaits c h

/-! ## Stuck engines -/

/-- An engine is held pushing into a full queue register (R36): the register. -/
def Core.pushingFull (c : Core) (e : Eng) : Option Nat :=
  match (c.eng e).pushing with
  | some (n, _) => if (c.queue n).length < 8 then none else some n
  | none => none

/-- An engine is stuck (R185), looking through at most the given number of engines. -/
def Core.stuckIn (c : Core) : Nat → Eng → Bool
  | 0, _ => false
  | k + 1, e =>
    (c.pushingFull e).isSome ||
    (match (c.eng e).queue.head? with
     | some x => x.waits.any (fun w => !waitDone c w && w.eng != e && c.stuckIn k w.eng)
     | none => false)

/-- An engine is stuck (R185). -/
def Core.stuck (c : Core) (e : Eng) : Bool := c.stuckIn 4 e

/-- The lowest-numbered full queue that a stuck engine pushes into (R185). -/
def Core.stuckQueue (c : Core) : Nat :=
  let qs := ([Eng.V, .M, .L, .E].filter (fun e => c.stuck e)).filterMap (fun e => c.pushingFull e)
  qs.foldl Nat.min 3

/-- The QDEAD trap of a dead-held front end (R185). -/
def Core.deadTrap (c : Core) : Trap := c.precise 0x08 (4 + c.stuckQueue) (BitVec.ofNat 32 c.stuckQueue)

/-! ## Executing and dispatching -/

/-- The core is within a range change (R166). -/
def Core.midRange (c : Core) : Bool := c.held.any (fun x => x.why == .range)

/-- The granules that the range change i of the core has changed so far (R166). -/
def Core.rangeDone (c : Core) (i : Instr) : Nat :=
  match c.held with
  | some x => if x.instr = i then x.done else 0
  | none => 0

/-- What executing an instruction does: it retires with the core it leaves and its issue cost; it
transfers control; it raises a precise trap; it retires and then traps (R193); the front end holds it,
dead-held or not; or one core cycle of a range change passes, after which n granules are changed (R166). -/
inductive Eff where
  | retire (c : Core) (cost : Nat)
  | jump (c : Core) (t : Pc) (cost : Nat)
  | trap (t : Trap)
  | retireTrap (code : Nat) (etval : Word)
  | hold (why : HoldReason) (dead : Bool)
  | progress (c : Core) (n : Nat)
deriving DecidableEq, Repr

/-- Hold an instruction, or raise QDEAD where nothing can end the hold (R185). -/
def holdFor (i : Instr) (why : HoldReason) (ws : List Wait) (dead : Bool) (s : State) : State :=
  if dead then raise s.core.deadTrap s
  else { s with core := { s.core with held := some { instr := i, why := why, waits := ws } } }

/-- Carry out what an instruction does (R64, R193, R194). The 4 core cycles of SVC and BKPT are those of their trap entry
(R176). -/
def settle (i : Instr) (h : Hdr) (ws : List Wait) (s : State) : Eff → State
  | .retire c cost => { s with core := s.core.retireFrom h cost c }
  | .jump c t cost => { s with core := s.core.jumpFrom cost t c }
  | .trap t => raise t s
  | .retireTrap code etval =>
    let c := s.core.retireFrom h 0 s.core
    raise (c.precise code 0 etval) { s with core := c }
  | .hold why dead => holdFor i why ws dead s
  | .progress c n =>
    { s with core := { c with held := some { instr := i, why := .range, waits := ws, done := n }
                              csr := { c.csr with cycle := c.csr.cycle + 1 } } }

/-- The guard of an instruction is true (R18, R69). -/
def Core.guard (c : Core) (h : Hdr) : Bool := c.pred h.g.toNat

/-- Every token wait of a scalar instruction is satisfied (R80). -/
def waitsDone (c : Core) (i : Instr) (h : Hdr) : Bool := (scalarWaits c i h).all (waitDone c)

/-- Steps 5 to 9 of R67 for a scalar instruction: pre holds its privilege and phase traps. -/
def issue (i : Instr) (h : Hdr) (pre : Core → Option Trap) (body : Core → Eff) (s : State) : Out :=
  let c := s.core
  if !c.guard h then .next { s with core := c.retireFrom h 1 c }
  else match pre c with
    | some t => .next (raise t s)
    | none =>
      let ws := scalarWaits c i h
      if ws.all (waitDone c) then .next (settle i h ws s (body c))
      else .next (holdFor i .tokens ws (ws.any (fun w => !waitDone c w && c.stuck w.eng)) s)

/-- A scalar instruction that is legal in every mode and phase (R54). -/
def scalar (i : Instr) (h : Hdr) (body : Core → Eff) (s : State) : Out :=
  issue i h (fun _ => none) body s

/-- The main word of an instruction, as ETVAL holds it (R68). -/
def mainWord (i : Instr) : Word := BitVec.ofNat 32 (encodeMain i)

/-- The core executes a compute superstep: its view is even (R53, R54). -/
def Core.inCompute (c : Core) : Bool := c.csr.phase.toNat % 2 == 0

/-- PHASE with SUB 1: V, M, L or ITER in an exchange block (R54, R195). -/
def computeOnly (i : Instr) (c : Core) : Option Trap :=
  if c.inCompute then none else some (c.precise 0x03 1 (mainWord i))

/-- PHASE with SUB 0: an exchange instruction in compute (R54, R195). -/
def exchangeOnly (i : Instr) (c : Core) : Option Trap :=
  if c.inCompute then some (c.precise 0x03 0 (mainWord i)) else none

/-- What dispatching an engine instruction gives: its queue entry with the core as dispatch leaves it
besides the queue, or a precise trap. -/
inductive Dispatch where
  | entry (c : Core) (e : Entry)
  | trap (t : Trap)
deriving DecidableEq, Repr

/-- The entry of an instruction with the handles and scalars it captures (R22, R39, R41, R129, R187). -/
def entryOf (i : Instr) (h : Hdr) (hs : List HandleBits) (xs : List Nat) (c : Core) : Entry :=
  { instr := i, handles := hs, scalars := xs, waits := captureWaits c h, fpctl := c.csr.fpctl
    seed := c.csr.seedlo.toNat + 2 ^ 32 * c.csr.seedhi.toNat, accown := c.csr.accown, priv := c.csr.priv
    xid := 0, stage := .queued, phase := c.csr.phase }

/-- Put an entry into an engine's queue: ISS counts it (R38); V, M and L clear the iteration mark (R181). The engine's MPC stays as it
is, 0 but where a supervisor wrote it (log 115). -/
def Core.enqueue (c : Core) (e : Eng) (x : Entry) : Core :=
  let g := c.eng e
  let c := c.setEng e { g with queue := g.queue ++ [x], iss := g.iss + 1 }
  if e = .E then c else { c with iterMark := false }

/-- The token of an engine instruction that is stepped, which STEP.D waits for (R451). -/
def Core.noteToken (c : Core) (e : Eng) : Core :=
  { c with dbg := { c.dbg with stepping := c.dbg.stepping.map (fun st =>
      if !st.retired && !c.csr.priv then
        { st with tokens := st.tokens ++ [{ eng := e, iss := (c.eng e).iss, dist := 0 }] } else st) } }

/-- Steps 5 to 9 of R67 for an engine instruction. A full queue holds the front end (R37), or raises ENGINE
with SUB 6 when its engine is frozen (R195); then come the checks of the instruction. -/
def dispatch (i : Instr) (h : Hdr) (e : Eng) (pre : Core → Option Trap) (check : Core → Dispatch)
    (s : State) : Out :=
  let c := s.core
  if !c.guard h then .next { s with core := c.retireFrom h 1 c }
  else match pre c with
    | some t => .next (raise t s)
    | none =>
      if engDepth e ≤ (c.eng e).queue.length then
        if (c.eng e).frozen then .next (raise (c.precise 0x0A 6 0) s)
        else .next (holdFor i .room [] (c.stuck e) s)
      else match check c with
        | .trap t => .next (raise t s)
        | .entry c' x => .next { s with core := c.retireFrom h 1 ((c'.enqueue e x).noteToken e) }

end Sys2Proof.Machine
end

