-- ==== Sys2Proof/Machine/CodecQueue.lean ====
section
/-! DEFINITION. The plane queues of the codec engines (14 R417 to R419, R424) and the checks of XENC and XDEC
(R418). -/

namespace Sys2Proof.Machine

/-- Replace a codec engine. -/
def State.putCodec (s : State) (e : Nat) (x : Codec) : State :=
  { s with codecs := s.codecs.setIfInBounds e x }

/-- WIDTH and HEIGHT of a session (R413). -/
def Codec.width (x : Codec) : Nat := bits x.size.toNat 15 0
def Codec.height (x : Codec) : Nat := bits x.size.toNat 31 16

/-- The samples of a row and the rows of a picture in a plane (R417). -/
def Codec.rowSamples (x : Codec) (pl : Nat) : Nat := if pl = 0 then x.width else x.width / 2
def Codec.planeRows (x : Codec) (pl : Nat) : Nat := if pl = 0 then x.height else x.height / 2

/-- Replace a plane queue. -/
def Codec.putPlane (x : Codec) (pl : Nat) (q : PlaneQueue) : Codec :=
  { x with planes := x.planes.setIfInBounds pl q }

/-- The samples of a row whose pieces were under way are dropped, as an XENC begins. -/
def Codec.dropPart (x : Codec) (pl : Nat) : Codec := x.putPlane pl { x.plane pl with part := [] }

/-- The record of an abandoned picture is still to be written (R426). -/
def Codec.failedPicture (x : Codec) : Bool :=
  match x.stage with
  | .chunks _ failed => failed
  | _ => false

/-- A row enters a plane of an encoder (R419): it completes the plane where it is the last, or is pushed
with .EOF. A row of an abandoned picture is dropped (R426); the last of a plane still tells the picture's record, while that
is to be written, whether the plane ended early and when (R421). -/
def Codec.pushRow (x : Codec) (pl : Nat) (samples : List Nat) (eof : Bool) (time : BitVec 64) : Codec :=
  let q := x.plane pl
  let full := q.entered + 1 == x.planeRows pl
  let last := full || eof
  let told := q.skip && last && x.failedPicture
  let x := if told then { x with srctime := BitVec.ofNat 64 (max x.srctime.toNat time.toNat) } else x
  x.putPlane pl { q with
    rows := if q.skip then q.rows
      else q.rows ++ [{ samples := samples, last := last, short := eof && !full, time := time }]
    skip := q.skip && !last
    short := q.short || (told && eof && !full)
    entered := if last then 0 else q.entered + 1 }

/-- A plane has room for a row (R417). -/
def PlaneQueue.room (q : PlaneQueue) : Bool := decide (q.rows.length < 64)

/-- The engine and the plane that an address names (R281); decoders stand behind the encoders. -/
def codecOf (a : Nat) : Nat := if addrKind a = 260 then 16 + bits a 50 48 else bits a 51 48
def planeOf (a : Nat) : Nat := bits a 47 46

/-- The checks of R418, R424 and R302: the failure kind, if any. The rows of the handle have the plane's width; those of
an XENC hold samples of INT16. A decoder above 7 does not exist. -/
def State.codecCheck (s : State) (c : Core) (a : Nat) (h : HandleBits) : Option Nat :=
  let x := s.codec (codecOf a)
  if addrKind a = 260 ∧ 8 ≤ bits a 51 48 then some kResource
  else if planeOf a = 3 then some kResource
  else if !x.en then some kResource
  else if bits x.cctx.toNat 5 0 ≠ c.ctx ∨ bits x.cctx.toNat 28 18 ≠ c.csr.coreL.toNat then some kPerm
  else if hD0 h ≠ x.rowSamples (planeOf a) ∨ (addrKind a ≠ 260 ∧ hFmt h ≠ 14) then some kResource
  else none

/-- The bytes of a decoded row: containers of 16 bits (R424). -/
def rowBytes (r : PlaneRow) : List Byte := (r.samples.map (bytesOfNat 2)).flatten

/-- The bytes that an output queue holds from its head on (R424). -/
def PlaneQueue.bytes (q : PlaneQueue) : List Byte := ((q.rows.map rowBytes).flatten).drop q.head

/-- Take n bytes from the head of an output queue. -/
def PlaneQueue.pull (q : PlaneQueue) (n : Nat) : PlaneQueue :=
  let rec go : List PlaneRow → Nat → List PlaneRow × Nat
    | [], k => ([], k)
    | r :: t, k => if (rowBytes r).length ≤ k then go t (k - (rowBytes r).length) else (r :: t, k)
  let x := go q.rows (q.head + n)
  { q with rows := x.1, head := if x.1.isEmpty then 0 else x.2 }

end Sys2Proof.Machine
end

