-- ==== Sys2Proof/Machine/Overlay.lean ====
section
/-! DEFINITION. Overlay images (03 R108 to R112): the header, and what loading an image does to the pages of
instruction memory. -/

namespace Sys2Proof.Machine

/-- A field of n bytes of an overlay header. -/
def ovField (h : List Byte) (off n : Nat) : Nat := natOfBytes ((h.drop off).take n)

/-- The fields of an overlay header (R108). -/
def ovPages (h : List Byte) : Nat := ovField h 0x0C 2
def ovExec (h : List Byte) : Nat := ovField h 0x0E 2
def ovKeep (h : List Byte) : Nat := ovField h 0x10 2
def ovPrologue (h : List Byte) : Nat := ovField h 0x12 2
def ovKernel (h : List Byte) : Nat := ovField h 0x14 2
def ovEpilogue (h : List Byte) : Nat := ovField h 0x16 2
def ovParams (h : List Byte) : Nat := ovField h 0x18 2
def ovCheck (h : List Byte) : Nat := ovField h 0x1C 4

/-- A header entry address is absent or a multiple of 4 (R109). -/
def entryOk (a : Nat) : Bool := a == 0xFFFF || a % 4 == 0

/-- A header is valid (R109). -/
def ovValid (h : List Byte) : Bool :=
  ovField h 0 4 == 0x4C564F58 && ovField h 4 2 == 1 && ovField h 6 2 == 64 &&
  Nat.land (ovExec h) (ovPages h) == ovExec h && Nat.land (ovKeep h) (ovPages h) == 0 &&
  ovKernel h != 0xFFFF && entryOk (ovPrologue h) && entryOk (ovKernel h) && entryOk (ovEpilogue h) &&
  decide (ovParams h ≤ 4096) && ovParams h % 4 == 0 && ovField h 0x1A 2 == 0 &&
  (h.drop 0x24).all (· == 0)

/-- The pages of a mask, ascending. -/
def maskPages (m : Nat) : List Nat := (List.range 16).filter (fun n => m / 2 ^ n % 2 == 1)

/-- The bytes of an image's page bodies (R108). -/
def ovBodyLen (h : List Byte) : Nat := 4096 * (maskPages (ovPages h)).length

/-- An image that carries page 15 is accepted only where `sup` says so (R112). -/
def ovAccepted (h : List Byte) (sup : Bool) : Bool := ovValid h && (sup || ovPages h / 2 ^ 15 % 2 == 0)

/-- Step 3 of R111: pages that the image neither carries nor keeps become invalid and not executable, pages
that it carries become invalid. Page 15 counts as kept (R112). -/
def Core.openOverlay (c : Core) (h : List Byte) : Core :=
  let pages := BitVec.ofNat 16 (ovPages h)
  let keep := BitVec.ofNat 16 (ovKeep h) ||| (0x8000 &&& ~~~pages)
  { c with pageValid := c.pageValid &&& keep, pageExec := c.pageExec &&& (keep ||| pages)
           overlay := some { mask := pages, exec := BitVec.ofNat 16 (ovExec h)
                             check := BitVec.ofNat 32 (ovCheck h), sum := 0 } }

/-- The sum of the 32-bit words of page bodies (R108). -/
def wordSum : List Byte → Nat
  | a :: b :: c :: d :: t => (natOfBytes [a, b, c, d] + wordSum t) % 2 ^ 32
  | _ => 0

/-- Where piece k of the page bodies goes in instruction memory: the pages in ascending order (R111). -/
def Overlay.pieceAt (o : Overlay) (k : Nat) : Nat := 4096 * (maskPages o.mask.toNat).getD (k / 8) 0 + 512 * (k % 8)

/-- Piece k of 512 bytes of the page bodies arrives (R111 step 4): it is written into its page, and its words are
summed. -/
def Core.putPiece (c : Core) (k : Nat) (bs : List Byte) : Core :=
  match c.overlay with
  | none => c
  | some o =>
    let a := o.pieceAt k
    { c with imem := writeBytes c.imem a bs
             imemPoison := setDelRange c.imemPoison (a / 8) (a / 8 + 64)
             overlay := some { o with sum := o.sum + BitVec.ofNat 32 (wordSum bs) } }

/-- The granules of piece k land at their offsets of the window, and the core's signature counts them (R456). -/
def Core.signPiece (c : Core) (k : Nat) (bs : List Byte) : Core :=
  match c.overlay with
  | none => c
  | some o => (List.range 32).foldl (fun c j => c.sign (0xC0000 + o.pieceAt k + 16 * j) ((bs.drop (16 * j)).take 16) false) c

/-- All the page bodies of an image arrive, piece by piece. -/
def Core.putBody (c : Core) (bs : List Byte) : Core :=
  (List.range (ceilDiv bs.length 512)).foldl (fun c k => c.putPiece k ((bs.drop (512 * k)).take 512)) c

/-- The whole image has arrived (R111 steps 5 and 6): the pages become valid where CHECK matches. The core, and
whether it matched. -/
def Core.closeOverlay (c : Core) : Core × Bool :=
  match c.overlay with
  | none => (c, true)
  | some o =>
    let c := { c with overlay := none }
    if o.sum = o.check then
      ({ c with pageValid := c.pageValid ||| o.mask
                pageExec := (c.pageExec &&& ~~~o.mask) ||| o.exec }, true)
    else (c, false)

end Sys2Proof.Machine
end

