-- ==== Sys2Proof/Machine/Reduce.lean ====
section
/-! DEFINITION. The combining nodes and trees of group and peer reductions (09 R296 to R298, 15 R443), and
the arithmetic of the atomics (R299). -/

namespace Sys2Proof.Machine

/-- The operations of R297. -/
inductive RedOp where
  | add | min | max | or
deriving DecidableEq, Repr

/-- The operation of a code: XLDG's MOD (R297), or OP of a peer block (R439). -/
def RedOp.ofCode : Nat → RedOp
  | 0 => .add | 1 => .min | 2 => .max | _ => .or

/-- The canonical NaN of a format. -/
def Fmt.nanCode (f : Fmt) : Nat := f.nan?.getD 0

/-- The code of a sum rounded to nearest even (R297, R299): INT32 wraps. -/
def addCodes (f : Fmt) (x y : Nat) : Nat :=
  if f.isInt then (x + y) % 2 ^ f.width
  else (round f .rne false ((f.value x).add false (f.value y)).1).code

/-- The lesser or greater of two codes, a negative zero below a positive one. -/
def pickCode (max : Bool) (f : Fmt) (x y : Nat) : Nat :=
  let a := f.value x
  let b := f.value y
  if max then (if a.ltz b then y else x) else (if b.ltz a then y else x)

/-- A node of two present inputs (R297). -/
def RedOp.node (op : RedOp) (f : Fmt) (x y : Nat) : Nat :=
  match op with
  | .add => addCodes f x y
  | .or => Nat.lor x y
  | .min => if (f.value x).isNan || (f.value y).isNan then f.nanCode else pickCode false f x y
  | .max => if (f.value x).isNan || (f.value y).isNan then f.nanCode else pickCode true f x y

/-- The value of a root that is void (R297). -/
def RedOp.identity (op : RedOp) (f : Fmt) : Nat :=
  match op with
  | .add | .or => 0
  | .min => match f.int? with
    | some (_, hi) => codeOfInt f.width hi
    | none => f.maxCode + 1
  | .max => match f.int? with
    | some (lo, _) => codeOfInt f.width lo
    | none => 2 ^ (f.width - 1) + f.maxCode + 1

/-- A node of inputs that may be void (R297): void with x yields x. -/
def RedOp.combine (op : RedOp) (f : Fmt) (x y : Option Nat) : Option Nat :=
  match x, y with
  | some a, some b => some (op.node f a b)
  | some a, none => some a
  | none, y => y

/-- One level of the tree: node j combines nodes 2j and 2j + 1 (R296, R443). A node without a partner has a
void one. -/
def treeLevel (op : RedOp) (f : Fmt) : List (Option Nat) → List (Option Nat)
  | a :: b :: t => op.combine f a b :: treeLevel op f t
  | l => l

/-- The root of a tree with the given number of levels. -/
def treeRoot (op : RedOp) (f : Fmt) : Nat → List (Option Nat) → Option Nat
  | 0, l => (l.head?).join
  | k + 1, l => treeRoot op f k (treeLevel op f l)

/-- Element i of a granule. -/
def granuleElem (f : Fmt) (i g : Nat) : Nat := g / 2 ^ (f.width * i) % 2 ^ f.width

/-- The result granule of a tree over the granules of its leaves (R296, R443). -/
def reduceGranule (op : RedOp) (f : Fmt) (levels : Nat) (leaves : List (Option Nat)) : Nat :=
  (List.range (128 / f.width)).foldl (fun v i =>
    let r := treeRoot op f levels (leaves.map (Option.map (granuleElem f i)))
    v + (r.getD (op.identity f)) * 2 ^ (f.width * i)) 0

/-! ## Atomics -/

/-- The new memory value of an atomic on a 32-bit word and the CAS outcome (R299): operation codes of R96,
FP32 or INT32. -/
def atomOp (o : Nat) (f : Fmt) (old a b : Nat) : Nat × Nat :=
  let signed := fun (max : Bool) =>
    let x := f.value old
    let y := f.value a
    if x.isNan && y.isNan then f.nanCode
    else if x.isNan then a
    else if y.isNan then old
    else pickCode max f old a
  match o with
  | 0 => ((old + a) % 2 ^ 32, 0)
  | 1 => (addCodes .fp32 old a, 0)
  | 2 => (signed false, 0)
  | 3 => (signed true, 0)
  | 4 => (a, 0)
  | 5 => if old = a then (b, 1) else (old, 0)
  | 6 => (Nat.land old a, 0)
  | 7 => (Nat.lor old a, 0)
  | _ => (Nat.xor old a, 0)

end Sys2Proof.Machine
end

