-- ==== Sys2Proof/Machine/Peer.lean ====
section
/-! DEFINITION. The peer reduction unit's blocks (15 R439 to R446): contributions, the reduction by rank, the
results and their signal. -/

namespace Sys2Proof.Machine

/-! ## Blocks -/

/-- Replace a block. -/
def State.putBlock (s : State) (b : Nat) (x : PeerBlock) : State :=
  { s with peer := { s.peer with blocks := assocPut s.peer.blocks b x } }

/-- The fields of a block's descriptor (R439). -/
def PeerBlock.op (x : PeerBlock) : Nat := bits (x.word 0) 3 2
def PeerBlock.fmt (x : PeerBlock) : Nat := bits (x.word 0) 7 4
def PeerBlock.home (x : PeerBlock) : Nat := bits (x.word 0) 15 8
def PeerBlock.size (x : PeerBlock) : Nat := bits (x.word 1) 23 0
def PeerBlock.bufoff (x : PeerBlock) : Nat := bits (x.word 2) 25 0
def PeerBlock.rstg (x : PeerBlock) : Nat := bits (x.word 3) 26 0
def PeerBlock.rsig (x : PeerBlock) : Nat := bits (x.word 4) 15 0
def PeerBlock.nrank (x : PeerBlock) : Nat := bits (x.word 5) 8 0
def PeerBlock.ctx (x : PeerBlock) : Nat := bits (x.word 6) 5 0

/-- This device's rank, and whether it is assigned (R439). -/
def State.rank (s : State) : Nat := bits s.peer.myrank.toNat 7 0
def State.rankValid (s : State) : Bool := wbit s.peer.myrank 8

/-- PORT of a rank's entry, where it is VALID (R439). -/
def State.rankPort (s : State) (r : Nat) : Option Nat :=
  let v := tabGet s.peer.rankPort r
  if bits v 3 3 = 1 then some (bits v 2 0) else none

/-- The PCI Express port that a PORT code names, where its link is up (R438, R439). -/
def State.reach (s : State) (code : Nat) : Option Nat :=
  let q := if code = 5 then 0 else code
  match s.ports[q]? with
  | some l => if 1 ≤ code ∧ code ≤ 5 ∧ l.speed ≠ 0 then some q else none
  | none => none

/-- A field of a descriptor holds a value that ARM refuses, or the home's buffer does not hold the block
(R440). -/
def State.armRefused (s : State) (x : PeerBlock) : Bool :=
  x.op == 3 || !([0, 1, 2, 12].contains x.fmt) || x.size == 0 || x.size % 16 != 0 || x.bufoff % 16 != 0 ||
  x.nrank == 0 || decide (256 < x.nrank) ||
  (s.rankValid && x.home == s.rank && decide (2 ^ 26 < x.bufoff + x.nrank * x.size))

/-- ARM of a block (R440). -/
def State.armBlock (s : State) (b : Nat) : State :=
  let x := s.block b
  if s.armRefused x then { s with peer := { s.peer with rej := true } }
  else s.putBlock b { x with state := .collect, arrived := [], bytes := [], taint := [] }

/-- CANCEL of a block (R440). -/
def State.cancelBlock (s : State) (b : Nat) : State :=
  s.putBlock b { s.block b with state := .idle, arrived := [], bytes := [], taint := [] }

/-- This device is a member of a block (R439): its rank is assigned and below NRANK. -/
def State.isMember (s : State) (x : PeerBlock) : Bool := s.rankValid && decide (s.rank < x.nrank)

/-- A staging granule counts as under a fill from an earlier exchange: it is a result of a block that collects, on a member
(R440). -/
def State.peerFill (s : State) (g : Nat) : Bool :=
  s.peer.blocks.any (fun p => p.2.state == .collect && s.isMember p.2 &&
    decide (p.2.rstg / 16 ≤ g ∧ 16 * g < p.2.rstg + p.2.size))

/-! ## Results -/

/-- The granule of a rank's contribution at an offset. -/
def PeerBlock.leaf (x : PeerBlock) (r o : Nat) : Nat := readLE x.bytes (r * 2 ^ 24 + o) 16

/-- A word of 8 bytes at an offset holds a tainted element (R443). -/
def PeerBlock.taintedWord (x : PeerBlock) (o : Nat) : Bool :=
  let w := ((Fmt.ofCode x.fmt).getD .fp32).width / 8
  (List.range x.nrank).any (fun r => (List.range' (o / w * w) 8).any (fun k => setHas x.taint (r * 2 ^ 24 + k)))

/-- The result granule at an offset (R443): a tree of 256 leaves by rank. -/
def PeerBlock.result (x : PeerBlock) (o : Nat) : List Byte :=
  let f := (Fmt.ofCode x.fmt).getD .fp32
  let g := reduceGranule (.ofCode x.op) f 8 ((List.range x.nrank).map (fun r => some (x.leaf r o)))
  bytesOfNat 16 g

/-- The poisoned words (0 and 1) of the result granule at an offset. -/
def PeerBlock.badWords (x : PeerBlock) (o : Nat) : List Nat :=
  [0, 1].filter (fun k => x.taintedWord (o + 8 * k))

/-- The offsets of a block's granules. -/
def PeerBlock.offsets (x : PeerBlock) : List Nat := (List.range (x.size / 16)).map (16 * ·)

/-- DONE on this device (R444): on a member, slot RSIG completes with STATUS 1 where a result word was poisoned or a part
of the range lay outside the context's staging; the block's state becomes DONE. -/
def State.blockDone (s : State) (b : Nat) : State :=
  let x := s.block b
  let bad := x.offsets.any (fun o => !s.stgOwnsEach x.ctx (x.rstg + o) 16 ||
    (eccWords (x.rstg + o) 16).any (setHas s.map.stgPoison))
  (if s.isMember x then s.complete x.rsig (bit bad) else s).putBlock b { x with state := .done, arrived := [], bytes := [], taint := [] }

/-- A part of a result arrives from the home (R442, R444): staging is written, and a granule is full when its last byte, or
the result's last, has been written. RSTG need not be a multiple of 16 (DEDUCED, log 108). -/
def State.peerResult (s : State) (a : Nat) (bs : List Byte) (bad : Bool) : State :=
  let s := s.putStaging a bs bad
  let hi := a + bs.length
  let last := s.peer.blocks.any (fun p => p.2.state == .collect && p.2.rstg + p.2.size == hi)
  { s with map := { s.map with stgFull := setAddRange s.map.stgFull (a / 16) (if last then ceilDiv hi 16 else hi / 16) } }

/-- The result of a block written on this device, by words of 8 bytes: those outside the context's staging are not written
(R444). -/
def State.writeResult (s : State) (x : PeerBlock) : State :=
  (x.offsets.flatMap (fun o => [(o, 0), (o, 1)])).foldl (fun s w =>
    let a := x.rstg + w.1 + 8 * w.2
    if s.stgOwnsEach x.ctx a 8 then
      s.peerResult a (((x.result w.1).drop (8 * w.2)).take 8) ((x.badWords w.1).contains w.2)
    else s) s

/-- A message of the layout of R442: KIND, RANK and BLOCK in the header; OFFSET and the failure kind in DW0; then data. -/
def peerMsg (kind rank block offset failure : Nat) (data : List Byte) (ep : Bool) : PeerMsg :=
  { header := BitVec.ofNat 32 (kind % 4 + 4 * (rank % 256) + 1024 * (block % 4096))
    payload := bytesOfNat 4 (offset % 2 ^ 24 + 2 ^ 24 * (failure % 256)) ++ data, ep := ep }

/-- The fields of a message (R442). -/
def msgKind (m : PeerMsg) : Nat := bits m.header.toNat 1 0
def msgRank (m : PeerMsg) : Nat := bits m.header.toNat 9 2
def msgBlock (m : PeerMsg) : Nat := bits m.header.toNat 21 10
def msgDw0 (m : PeerMsg) : Nat := natOfBytes (m.payload.take 4)
def msgOffset (m : PeerMsg) : Nat := bits (msgDw0 m) 23 0
def msgFailure (m : PeerMsg) : Nat := bits (msgDw0 m) 31 24
def msgData (m : PeerMsg) : List Byte := m.payload.drop 4

/-- The result of a block sent to a member on another device (R442, R444): posted writes, by words of 8
bytes, then DONE. -/
def State.sendResult (s : State) (b : Nat) (x : PeerBlock) (q base : Nat) : State :=
  let s := x.offsets.foldl (fun s o =>
    let bs := x.result o
    [0, 1].foldl (fun s k => s.emit (.write q (base + 0x68000000 + x.rstg + o + 8 * k)
      ((bs.drop (8 * k)).take 8) ((x.badWords o).contains k))) s) s
  s.emit (.peer q (peerMsg 2 s.rank b 0 0 [] false))

/-- PEER_REDUCE (R443, R444): the home reduces a block of which every byte has arrived, gives every member
its result, and enters DONE. -/
def State.reduceBlock (s : State) (b : Nat) : State :=
  let x := s.block b
  let s := (List.range x.nrank).foldl (fun s r =>
    match s.rankPort r with
    | some 0 => s.writeResult x
    | some code =>
      (match s.reach code with
       | some q => s.sendResult b x q (tabGet s.peer.rankBase r)
       | none => s)
    | none => s) s
  s.blockDone b

/-! ## Contributions -/

/-- The bytes of a contribution that the home takes (R443): a byte that a rank already holds is dropped.
The block and how many bytes were dropped. -/
def PeerBlock.take (x : PeerBlock) (bad : Bool) : Nat → List Byte → PeerBlock × Nat
  | _, [] => (x, 0)
  | k, b :: bs =>
    if setHas x.arrived k then
      let r := x.take bad (k + 1) bs
      (r.1, r.2 + 1)
    else
      PeerBlock.take { x with arrived := setAdd x.arrived k, bytes := memWrite x.bytes k b
                              taint := setPut x.taint k bad } bad (k + 1) bs

/-- Count dropped contribution bytes (R439). -/
def State.countDup (s : State) (n : Nat) : State :=
  { s with peer := { s.peer with ndup := s.peer.ndup + BitVec.ofNat 64 n } }

/-- A contribution arrives at this device as its home (R441, R443): the kind of failure, 0 for success. -/
def State.contribute (s : State) (rank b off : Nat) (bs : List Byte) (bad : Bool) : State × Nat :=
  let x := s.block b
  match x.state with
  | .idle => (s, kResource)
  | .done => (s.countDup bs.length, 0)
  | .collect =>
    if x.nrank ≤ rank ∨ x.size < off + bs.length then (s, kResource)
    else
      let r := x.take bad (rank * 2 ^ 24 + off) bs
      let s := (s.putBlock b r.1).countDup r.2
      if r.1.arrived.length = x.nrank * x.size then (s.reduceBlock b, 0) else (s, 0)

/-- The checks of XRDEV that the issuing device makes (R441): PERM, RESOURCE or PEER. -/
def State.rdevCheck (s : State) (ctx b off n op fmt : Nat) : Option Nat :=
  let x := s.block b
  if b < 4096 ∧ x.ctx ≠ ctx then some kPerm
  else if !s.rankValid || decide (x.nrank ≤ s.rank) || decide (4096 ≤ b) || x.op != op || x.fmt != fmt ||
      decide (x.size < off + n) then some kResource
  else match s.rankPort x.home with
    | some 0 => none
    | some code => if (s.reach code).isSome then none else some kPeer
    | none => some kPeer

/-- A contribution of core p's transfer sent to a home on another device through port q (R442): the transfer
waits for the acknowledgement. -/
def State.sendContribution (s : State) (p : Nat) (x : Entry) (piece b off q : Nat) (bs : List Byte) (bad : Bool) : State :=
  let s := s.emit (.peer q (peerMsg 0 s.rank b off 0 bs bad))
  let w : Contribution := { core := p, chan := x.chan, id := x.xid, piece := piece, block := b, offset := off }
  let s := { s with peer := { s.peer with waiting := s.peer.waiting ++ [w] } }
  s.onXfer p x.chan x.xid (fun y => { y with acks := y.acks ++ [piece] })

/-- An acknowledgement for a contribution (R442): its transfer goes on, or fails. -/
def State.acknowledge (s : State) (w : Contribution) (kind : Nat) : State :=
  let s := { s with peer := { s.peer with waiting := s.peer.waiting.erase w } }
  match (s.coreAt w.core).xfer w.chan w.id with
  | none => s
  | some y =>
    if kind = 0 then s.onXfer w.core w.chan w.id (fun y => { y with acks := y.acks.erase w.piece })
    else s.fail w.core y.entry kind

end Sys2Proof.Machine
end

