-- ==== Sys2Proof/Machine/Landing.lean ====
section
/-! DEFINITION. How the pieces of transfers land (09 R284 to R306): sources and their qualifiers, granules in
place order, group reductions, atomics, gathers, codec rows, signals, launches and peer contributions. -/

namespace Sys2Proof.Machine

/-! ## Sources -/

/-- What reading a granule gives: it is not there yet, its bytes with its poisoned words, or a failure. -/
inductive Source where
  | wait
  | got (bs : List Byte) (bad : List Nat)
  | fail (kind : Nat)
deriving DecidableEq, Repr

/-- A granule of a core's window under a qualifier (R284): 0 W, 1 C, 2 N. -/
def State.windowSource (s : State) (c : Core) (o qual : Nat) : Source :=
  if qual ≠ 2 ∧ !c.isFull o then .wait else .got (c.windowBytes s.det s.time o 16) (c.badWords o)

/-- A fill from an earlier exchange is under way for a staging granule (R293). -/
def State.fillBefore (s : State) (g : Nat) : Bool :=
  s.map.fills.any (fun f => f.phase != s.iris.phase && f.left.any (fun j => f.slot / 16 + j == g))

/-- A granule of staging under a qualifier (R284, R293): one of the result of a collecting block waits (R440), and an
uncorrectable error of the SRAM fails with MEMERR (R286). -/
def State.stagingSource (s : State) (g qual : Nat) : Source :=
  if qual ≠ 2 ∧ s.peerFill g then .wait
  else if qual = 2 ∨ s.stgFull g then
    if s.stgFails g then .fail kMemErr else .got (readBytes s.map.staging (16 * g) 16) (s.stgBad g)
  else if s.fillBefore g then .wait
  else .fail kNotFilled

/-- The four fault records as XGET reads them (R287). -/
def Core.faultBytes (c : Core) : List Byte :=
  (c.faultRec.toList.map (fun r => bytesOfNat 16 r.toNat)).flatten

/-- The staging address of the granule j of row k of an XGTH (R301): none for a row of zeros. A row behind the list's last
element reads the entry that the handle addresses there (DESIGN CHOICE, log 130). -/
def gatherAddr (c : Core) (x : Entry) (row j : Nat) : Option Nat :=
  let e := readElem c.mem (x.h 1) row
  if e = 0xFFFFFFFF then none else some (addrStg x.addr + e * hRowBytes (x.h 0) + 16 * j)

/-- The sources of a row of an XGTH (R301): the list entry under W, then its bytes. -/
def State.gatherSource (s : State) (c : Core) (x : Entry) (row j : Nat) : Source :=
  let a := (hElem (x.h 1) row).1
  if (c.firstEmpty a 4).isSome then .wait
  else if (c.firstPoison a 4).isSome then .fail kPoison
  else match gatherAddr c x row j with
    | none => .got (List.replicate 16 0) []
    | some o => if 2 ^ 27 < o + 16 ∨ !s.stgOwned c.ctx o 16 then .fail kPerm else s.stagingSource (o / 16) 0

/-- The sources of piece k of a transfer, granule by granule (R289 to R294, R301, R306). -/
def State.sources (s : State) (c : Core) (x : Entry) (k : Nat) : List Source :=
  let gs := pieceGranules x.count (k % 65536)
  let q := xferQual x.instr
  match x.instr with
  | .xput .. | .xbc .. | .xst .. | .xrdev .. => gs.map (fun j => s.windowSource c (hGranule (x.h 0) j) q)
  | .xget .. =>
    if addrKind x.addr = 261 then
      gs.map (fun j => .got ((c.faultBytes.drop (x.addr % 64 + 16 * j)).take 16) [])
    else
      (match s.memberCore c (addrCore x.addr) with
       | some p => gs.map (fun j => s.windowSource (s.coreAt p) (addrOff x.addr + 16 * j) q)
       | none => gs.map (fun _ => .fail kResource))
  | .xld .. => gs.map (fun j => s.stagingSource (addrStg x.addr / 16 + j) q)
  | .xgth .. => (pieceGranules (hRowBytes (x.h 0)) (k % 65536)).map (s.gatherSource c x (k / 65536))
  | _ => []

/-- Set the scratchpad granules that a list of window offsets lies in empty. -/
def Core.emptyAt (c : Core) (os : List Nat) : Core :=
  { c with full := os.foldl (fun f o => if o < 0x80000 then setDel f (o / 16) else f) c.full }

/-- The staging granules that piece k of a transfer reads (R293, R301). -/
def stagingRead (c : Core) (x : Entry) (k : Nat) : List Nat :=
  match x.instr with
  | .xld .. => (pieceGranules x.count (k % 65536)).map (fun j => addrStg x.addr / 16 + j)
  | .xgth .. => (pieceGranules (hRowBytes (x.h 0)) (k % 65536)).filterMap (fun j =>
      (gatherAddr c x (k / 65536) j).map (· / 16))
  | _ => []

/-- A piece has read its sources: errors that it met in staging are poison from now on (R345), and under qualifier C
the granules become empty (R284). The pieces of an XBC to other members still read them; a share of it that is deferred does
not keep them full (DESIGN CHOICE, log 51). -/
def State.takeSources (s : State) (p : Nat) (y : Xfer) (k : Nat) : State :=
  let x := y.entry
  let gs := pieceGranules x.count (k % 65536)
  let s := (stagingRead (s.coreAt p) x k).foldl (fun s g => s.stgMet (16 * g) 16) s
  if xferQual x.instr ≠ 1 then s
  else match x.instr with
    | .xput .. | .xst .. => s.onCoreAt p (·.emptyAt (gs.map (hGranule (x.h 0))))
    | .xbc .. =>
      if y.pieces.any (fun k' => k' != k && k' % 65536 == k % 65536) then s
      else s.onCoreAt p (·.emptyAt (gs.map (hGranule (x.h 0))))
    | .xget .. =>
      (match s.memberCore (s.coreAt p) (addrCore x.addr) with
       | some q => s.onCoreAt q (·.emptyAt (gs.map (fun j => addrOff x.addr + 16 * j)))
       | none => s)
    | .xld .. =>
      { s with map := { s.map with
          stgFull := gs.foldl (fun f j => setDel f (addrStg x.addr / 16 + j)) s.map.stgFull } }
    | _ => s

/-- The failure of a source; a granule with a poisoned word fails with POISON. -/
def Source.failure : Source → Option Nat
  | .fail k => some k
  | .got _ bad => if bad.isEmpty then none else some kPoison
  | .wait => none

/-- The failure of a list of sources, the first in order, with its place. -/
def firstFail (l : List Source) : Option (Nat × Nat) :=
  (List.range l.length).findSome? (fun i => ((l[i]?).bind Source.failure).map (fun k => (k, i)))

/-- The transfer address of granule i of piece k (R287; log 89). -/
def State.pieceAddr (s : State) (p : Nat) (x : Entry) (k i : Nat) : Nat :=
  match x.instr with
  | .xgth .. =>
    (match gatherAddr (s.coreAt p) x (k / 65536) (32 * (k % 65536) + i) with
     | some o => x.addr - addrStg x.addr + o
     | none => x.addr)
  | .xenc .. | .xdec .. => x.addr
  | _ => x.granuleAddr (32 * (k % 65536) + i)

/-- The bytes and the poisoned words of a source that has come. -/
def Source.data : Source → List Byte × List Nat
  | .got bs bad => (bs, bad)
  | _ => ([], [])

/-! ## Pieces -/

/-- Piece k of a transfer of core p is done. -/
def State.endPiece (s : State) (p : Nat) (x : Entry) (k : Nat) : State :=
  s.onXfer p x.chan x.xid (fun y => { y with pieces := y.pieces.erase k })

/-- Write poison at places of a failed transfer, each as R286 step 1 says. -/
def State.poisonPlaces (s : State) (p : Nat) (x : Entry) (pls : List Place) : State :=
  pls.foldl (fun s pl => s.poisonPlace (s.coreAt p) x pl) s

/-- A piece fails at an address with the places that it has not written: they are poisoned and the transfer
fails. -/
def State.failPiece (s : State) (p : Nat) (x : Entry) (k kind addr : Nat) (rest : List Place) : State :=
  ((s.endPiece p x k).poisonPlaces p x rest).failAt p x kind 0xFF addr

/-- A granule lands at a place. -/
def State.landGranule (s : State) (p : Nat) (x : Entry) (pl : Place) (bs : List Byte) (bad : List Nat) : State :=
  match pl with
  | .window q o => s.landWindow q o (s.coreAt p) x bs bad
  | .staging g => s.stgPut g bs bad

/-- The granules of a piece land in ascending order; the places left where one is full (R285). -/
def State.landRun (s : State) (p : Nat) (x : Entry) : List (Place × List Byte) → State × List Place
  | [] => (s, [])
  | (pl, bs) :: t =>
    if s.placeFull pl then (s, pl :: t.map (·.1)) else (s.landGranule p x pl bs []).landRun p x t

/-- The granules of a piece of which one finds its place full: each other granule has landed before the failure or takes
the poison of R286 step 1, which the spec leaves open (R276, R482; DEDUCED, log 104). -/
def State.landTorn (s : State) (p : Nat) (x : Entry) : List (Place × List Byte) → State
  | [] => s
  | (pl, bs) :: t =>
    (if s.placeFull pl then s
     else if Config.freeNat s.nfree % 2 = 1 then s.takeFree.landGranule p x pl bs []
     else s.takeFree.poisonPlace (s.coreAt p) x pl).landTorn p x t

/-- The granules of a piece land (R285): with the first, in ascending order, whose place is full, where one is. -/
def State.landGranules (s : State) (p : Nat) (x : Entry) (l : List (Place × List Byte)) : State × Option Nat :=
  let r := s.landRun p x l
  if r.2.isEmpty then (r.1, none) else (s.landTorn p x l, some (l.length - r.2.length))

/-- The poison of a source travels to a parameter window, and to a window region that holds its writes (R286, R345);
elsewhere R286 step 1 applies. -/
def State.sendPoison (s : State) (p : Nat) (x : Entry) (pl : Place) (d : List Byte × List Nat) : State :=
  match pl with
  | .window q o =>
    if 0xA0000 ≤ o ∧ !d.2.isEmpty then s.landWindow q o (s.coreAt p) x d.1 d.2
    else s.poisonPlace (s.coreAt p) x pl
  | .staging _ => s.poisonPlace (s.coreAt p) x pl

/-- Member m of an XBC cannot take a piece (R290): the transfer fails, what this member has still to receive
is poisoned, and the other members' pieces go on. -/
def State.failMember (s : State) (p : Nat) (x : Entry) (m kind addr : Nat) (rest : List Place) : State :=
  match (s.coreAt p).xfer x.chan x.xid with
  | none => s
  | some y =>
    let mine := y.pieces.filter (fun k => k / 65536 == m)
    let s := (s.noteFail p x kind 0xFF addr).poisonPlaces p x rest
    let s := mine.foldl (fun s k => s.poisonPlaces p x (s.destPlaces (s.coreAt p) x k)) s
    s.onXfer p x.chan x.xid (fun y =>
      { y with pieces := y.pieces.filter (fun k => k / 65536 != m), badMembers := setAdd y.badMembers m })

/-- A piece of a transfer that moves granules from sources to places (R289, R290, R293, R294, R301). -/
def State.landMove (s : State) (p : Nat) (y : Xfer) (k : Nat) : Option State :=
  let x := y.entry
  let c := s.coreAt p
  let src := s.sources c x k
  let pls := s.destPlaces c x k
  if src.contains .wait then none
  else
    let s := s.takeSources p y k
    match firstFail src with
    | some (kind, i) =>
      let a := s.pieceAddr p x k i
      let s := (pls.zip (src.map Source.data)).foldl (fun s d => s.sendPoison p x d.1 d.2) s
      some ((s.endPiece p x k).failAt p x kind 0xFF a)
    | none =>
      match s.landGranules p x (pls.zip (src.map (fun d => d.data.1))) with
      | (t, none) => some (t.endPiece p x k)
      | (t, some i) =>
        let a := s.pieceAddr p x k i
        match x.instr with
        | .xbc .. => some ((t.endPiece p x k).failMember p x (k / 65536) kFeFull a [])
        | _ => some (t.failPiece p x k kFeFull a [])

/-! ## Group reductions -/

/-- The members of an XLDG's group that are present (R296): the core, or none where the member is void. -/
def State.ldgMembers (s : State) (c : Core) (x : Entry) : List (Option Nat) :=
  (List.range (addrSize x.addr)).map (fun i =>
    match s.memberCore c (addrLow x.addr + i) with
    | some q => if s.straggles q ∨ (s.coreAt q).pst = .absent then none else some q
    | none => none)

/-- The lowest member index for which a test of its core holds. -/
def lowestMember (s : State) (ms : List (Option Nat)) (f : Core → Bool) : Option Nat :=
  (List.range ms.length).find? (fun i =>
    match ms.getD i none with
    | some q => f (s.coreAt q)
    | none => false)

/-- The failure of result granule j of an XLDG, with its MEMBER, by the rows of R298; none where the granule
takes a value. -/
def State.ldgFail (s : State) (p : Nat) (x : Entry) (ms : List (Option Nat)) (j : Nat) : Option (Nat × Nat) :=
  let o := addrOff x.addr + 16 * j
  if s.placeFull (.window p (hGranule (x.h 0) j)) then some (kFeFull, 0xFF)
  else match lowestMember s ms (fun c => c.isFull o && !(c.badWords o).isEmpty) with
    | some m => some (kPoison, m)
    | none => (lowestMember s ms (fun c => !c.isFull o)).map (fun m => (kTimeout, m))

/-- The outcome of result granule j among the granules of its piece: an earlier one at the same scratchpad place leaves
it full (R285, R298). -/
def State.ldgOutcome (s : State) (p : Nat) (x : Entry) (ms : List (Option Nat)) (gs : List Nat) (j : Nat) :
    Option (Nat × Nat) :=
  let o := hGranule (x.h 0) j
  if inScratch o && (gs.takeWhile (· != j)).any (fun i => hGranule (x.h 0) i == o) then some (kFeFull, 0xFF)
  else s.ldgFail p x ms j

/-- Result granule j of an XLDG lands (R297, R298), as the state `seen` has its members; a granule that is full by now
keeps its bytes (R285). A local offset outside the scratchpad reads the members' local memory there (DESIGN CHOICE, log 119). -/
def State.ldgLand (s seen : State) (p : Nat) (x : Entry) (ms : List (Option Nat)) (j : Nat) : State :=
  let o := addrOff x.addr + 16 * j
  let pl := Place.window p (hGranule (x.h 0) j)
  match seen.ldgFail p x ms j, x.instr with
  | some _, _ => s.poisonPlace (s.coreAt p) x pl
  | none, .xldg _ _ _ _ m =>
    let g := reduceGranule (.ofCode m.toNat) (hFormat (x.h 0)) 6
      (ms.map (Option.map (fun q => readLE (seen.coreAt q).mem o 16)))
    let s := if s.placeFull pl then s else s.landGranule p x pl (bytesOfNat 16 g) []
    if ms.all (·.isNone) then s.onXfer p x.chan x.xid (fun y => { y with void := true }) else s
  | none, _ => s

/-- Of several failures the one with the lowest kind, and of those the lowest member (R287, R298). -/
def lowestFail (l : List (Nat × Nat)) : Option (Nat × Nat) :=
  l.foldl (fun r f =>
    match r with
    | none => some f
    | some g => some (if f.1 < g.1 ∨ (f.1 = g.1 ∧ f.2 < g.2) then f else g)) none

/-- Result granules of an XLDG land, each with its outcome by R298; the lowest failure is recorded. -/
def State.ldgRun (s : State) (p : Nat) (x : Entry) (ms : List (Option Nat)) (gs : List Nat) : State :=
  let s' := match lowestFail (gs.filterMap (s.ldgOutcome p x ms gs)) with
    | some f =>
      let j := (gs.find? (fun j => s.ldgOutcome p x ms gs j == some f)).getD 0
      s.noteFail p x f.1 f.2 (x.granuleAddr j)
    | none => s
  gs.foldl (fun s j => s.ldgLand s p x ms j) s'

/-- A piece of an XLDG (R296): every present member's granules are full. -/
def State.landReduce (s : State) (p : Nat) (y : Xfer) (k : Nat) : Option State :=
  let x := y.entry
  let ms := s.ldgMembers (s.coreAt p) x
  let gs := pieceGranules x.count k
  if gs.any (fun j => (lowestMember s ms (fun c => !c.isFull (addrOff x.addr + 16 * j))).isSome) then none
  else some ((s.ldgRun p x ms gs).endPiece p x k)

/-! ## Atomics -/

/-- Granule j of a fill or write-back: where it lies in physical memory, once translated. -/
def Drain.place (d : Drain) (j : Nat) : Option (Nat × Bool) :=
  d.pages.findSome? (fun m =>
    match m.res with
    | .ok pa host _ => if m.off ≤ 16 * j ∧ 16 * j < m.off + m.len then some (pa + (16 * j - m.off), host) else none
    | _ => none)

/-- The ordering kind of the page of granule j of a fill or write-back (R322): 0 SO, 1 RC, 2 UO. -/
def Drain.kindAt (d : Drain) (j : Nat) : Option Nat :=
  d.pages.findSome? (fun m =>
    match m.res with
    | .ok _ _ k => if m.off ≤ 16 * j ∧ 16 * j < m.off + m.len then some k else none
    | _ => none)

/-- A fill that reads an SO page is an acquire until its last piece has come (R322, R323). -/
def Drain.acquires (d : Drain) : Bool :=
  d.pages.any (fun m =>
    match m.res with
    | .ok _ _ k => k == 0
    | _ => false)

/-- Some granule that drains have left meets n bytes at a physical address. -/
def drainsMeet (ds : List Drain) (host : Bool) (pa n : Nat) : Bool :=
  ds.any (fun d => d.left.any (fun j =>
    match d.place j with
    | some (a, h) => h == host && decide (a < pa + n ∧ pa < a + 16)
    | none => false))

/-- Where the first page of a transfer's virtual range lies, once translated: its address and HOST. -/
def Xfer.firstPlace (y : Xfer) : Option (Nat × Bool) :=
  match y.pages with
  | m :: _ =>
    (match m.res with
     | .ok pa host _ => some (pa, host)
     | _ => none)
  | [] => none

/-- The atomic of an XATM (R299, R331): where its result granule is full, on a listed block and on an error of the
devices it fails and leaves the memory as it stands (R286 step 2); while a fill of an earlier exchange has still to
read the bytes it waits. -/
def State.landAtom (s : State) (p : Nat) (y : Xfer) (k : Nat) : Option State :=
  let x := y.entry
  let c := s.coreAt p
  let b := hBase (x.h 0)
  match y.firstPlace, atomOf x.instr with
  | some (pa, host), some (o, _) =>
    if !c.isFull b ∨ drainsMeet (s.map.fills.filter (fun f => f.phase != s.iris.phase)) host pa 4 then none
    else if s.placeFull (.window p (b + 16)) then some (s.failPiece p x k kFeFull x.addr [])
    else if (c.firstPoison b 8).isSome then some (s.fail p x kPoison)
    else if !host ∧ s.memError pa then some (s.takeFree.fail p x kMemErr)
    else if !host ∧ s.gddrPoisoned pa 4 then some (s.fail p x kPoison)
    else
      let old := natOfBytes (s.physBytes host pa 4)
      let r := atomOp o (hFormat (x.h 0)) old (readLE c.mem b 4) (readLE c.mem (b + 4) 4)
      let s := if o = 5 ∧ r.2 = 0 then s else s.physStore host pa (bytesOfNat 4 r.1)
      let t := s.landRun p x [(.window p (b + 16), bytesOfNat 4 old ++ bytesOfNat 4 r.2 ++ bytesOfNat 8 0)]
      some (t.1.endPiece p x k)
  | _, _ => none

/-! ## Codec rows -/

/-- A piece of a row of an XENC moves, in order, when there is room (R276, R302, R418, R419): with its last piece the row
enters its plane; a session that has ended fails it (R426). The samples of pieces that a resumed XENC does not
repeat are free values (log 90). -/
def State.landEncode (s : State) (p : Nat) (y : Xfer) (k : Nat) : Option State :=
  let x := y.entry
  let c := s.coreAt p
  let e := codecOf x.addr
  let h := x.h 0
  let r := k / 65536
  let j := k % 65536
  let os := (pieceGranules (hRowBytes h) j).map (fun g => hRowAddr h r (16 * g))
  let pl := planeOf x.addr
  let q := (s.codec e).plane pl
  match x.instr with
  | .xenc _ _ _ _ eof =>
    if y.pieces.head? ≠ some k then none
    else match s.codecCheck c x.addr h with
      | some kind => some (s.fail p x kind)
      | none =>
        if os.any (fun o => !c.isFull o) then none
        else if os.any (fun o => !(c.badWords o).isEmpty) then some (s.fail p x kPoison)
        else if !q.room then none
        else
          let new := (os.map (fun o => (List.range 8).map (fun i => readLE c.mem (o + 2 * i) 2 % 1024))).flatten
          let row := (if j = 0 then [] else q.part) ++ new
          if j + 1 < pieceCount (hRowBytes h) then
            some ((s.putCodec e ((s.codec e).putPlane pl { q with part := row })).endPiece p x k)
          else
            let lost := (List.range ((s.codec e).rowSamples pl - row.length)).map (fun i => Config.freeNat (s.nfree + i) % 1024)
            let y := (s.codec e).putPlane pl { q with part := [] }
            let s := { s with nfree := s.nfree + lost.length }
            some ((s.putCodec e (y.pushRow pl (lost ++ row) (eof == 1 && r + 1 == x.count) s.time)).endPiece p x k)
  | _ => none

/-- A piece of an XDEC (R302, R424): in order, once all the bytes that it has still to take are there. -/
def State.landDecode (s : State) (p : Nat) (y : Xfer) (k : Nat) : Option State :=
  let x := y.entry
  let e := codecOf x.addr
  let q := (s.codec e).plane (planeOf x.addr)
  if y.pieces.head? ≠ some k then none
  else match s.codecCheck (s.coreAt p) x.addr (x.h 0) with
    | some kind => some (s.fail p x kind)
    | none =>
      if q.bytes.length < x.count - 512 * k then none
      else
        let pls := s.destPlaces (s.coreAt p) x k
        let bs := q.bytes
        let s := s.putCodec e ((s.codec e).putPlane (planeOf x.addr) (q.pull (16 * pls.length)))
        match s.landGranules p x ((List.range pls.length).map (fun i =>
          (pls.getD i (.staging 0), (bs.drop (16 * i)).take 16))) with
        | (t, none) => some (t.endPiece p x k)
        | (t, some _) => some (t.failPiece p x k kFeFull x.addr [])

/-! ## Signals, launches, contributions -/

/-- XSIG acts on its slot (R304, R382). -/
def State.landSignal (s : State) (p : Nat) (y : Xfer) (k : Nat) : Option State :=
  let x := y.entry
  let n := x.num 0
  match x.instr with
  | .xsig _ _ _ m =>
    if slotCount ≤ n then some (s.fail p x kResource)
    else if s.slotCtx n ≠ (s.coreAt p).ctx then some (s.fail p x kPerm)
    else some ((s.slotUpdate n (if m = 1 then x.num 1 else s.slotValue n + x.num 1)).endPiece p x k)
  | _ => none

/-- XLAUNCH_APPEND (R384): the record at TAIL, TAIL advanced and LAUNCH queued; or the failure kind. -/
def State.append (s : State) (c : Core) (pa : Nat) (host : Bool) (record : List Byte) : State × Nat :=
  match (if host then none else s.queueAt pa) with
  | none => (s, kResource)
  | some q =>
    if bits (s.qFlags pa) 1 1 = 0 then (s, kResource)
    else if s.qAsid pa ≠ c.csr.asid.toNat then (s, kPerm)
    else if s.queueFull pa then (s, kQFull)
    else
      let t := s.qTail pa
      let s := (s.gddrStore (s.recordAddr pa t) record).gddrPut (pa + 0x10) 4 (t + 1)
      (s.notify (queueHart q) 0x02 (some (s.qCtx pa)) none (some q) (some t) none, 0)

/-- The record of an XLAUNCH reaches the distributor (R305, R384), which holds it while it cannot queue LAUNCH (R378). -/
def State.landLaunch (s : State) (p : Nat) (y : Xfer) (k : Nat) : Option State :=
  let x := y.entry
  let c := s.coreAt p
  let os := (List.range 4).map (fun j => hRowAddr (x.h 0) 0 (16 * j))
  match y.firstPlace with
  | some (pa, host) =>
    if os.any (fun o => (c.firstEmpty o 16).isSome) then none
    else if os.any (fun o => (c.firstPoison o 16).isSome) then some (s.fail p x kPoison)
    else if !host && (s.queueAt pa).any (fun q => !s.eventRoom (queueHart q)) then none
    else
      let r := s.append c pa host ((os.map (fun o => readBytes c.mem o 16)).flatten)
      if r.2 = 0 then some (r.1.endPiece p x k) else some (r.1.fail p x r.2)
  | _ => none

/-- A piece of an XRDEV goes to the block's home (R306, R441, R442): poisoned source words poison the
message, as a link's uncorrectable error does (`spoilt`, R431), and the transfer fails with POISON while its other
pieces go on. -/
def State.landContribution (s : State) (p : Nat) (y : Xfer) (k : Nat) (spoilt : Bool) : Option State :=
  let x := y.entry
  let src := s.sources (s.coreAt p) x k
  let b := bits x.addr 47 24
  let off := x.addr % 2 ^ 24 + 512 * k
  match x.instr with
  | .xrdev .. =>
    if src.contains .wait then none
    else
      let bs := (src.map (fun d => d.data.1)).flatten
      let bad := spoilt || (firstFail src).isSome
      let a := s.pieceAddr p x k (((firstFail src).map (·.2)).getD 0)
      let s := if bad then s.noteFail p x kPoison 0xFF a else s
      let s := s.endPiece p x k
      (match s.rankPort (s.block b).home with
       | some 0 =>
         let r := s.contribute s.rank b off bs bad
         if r.2 = 0 then some r.1 else some (r.1.fail p x r.2)
       | some code =>
         (match s.reach code with
          | some q => some (s.sendContribution p x k b off q bs bad)
          | none => some (s.fail p x kPeer))
       | none => some (s.fail p x kPeer))
  | _ => none

/-! ## Overlays -/

/-- n bytes of a translated range from an offset, through the parts that carry them. -/
def State.rangeBytes (s : State) (ps : List PageMap) (off n : Nat) : Except Nat (List Byte) :=
  s.partBytes (ps.filterMap (fun m =>
    let lo := max off m.off
    let hi := min (off + n) (m.off + m.len)
    match m.res with
    | .ok pa host k =>
      if lo < hi then some { off := lo, len := hi - lo, va := m.va + (lo - m.off), res := .ok (pa + (lo - m.off)) host k }
      else none
    | _ => none))

/-- n bytes of an overlay image from an offset: from staging without waiting, since XOVL has no qualifier and stands in no
list of R284 (DESIGN CHOICE, log 106), or through the pages of the part of the
image that begins at base. -/
def State.ovBytes (s : State) (c : Core) (y : Xfer) (base off n : Nat) : Except Nat (List Byte) :=
  if addrKind y.entry.addr = 257 then
    let a := addrStg y.entry.addr + base + off
    if !s.stgOwned c.ctx a n then .error kPerm
    else if n ≠ 0 ∧ (eccWords a n).any (fun w => setHas s.map.stgErr w) then .error kMemErr
    else if n ≠ 0 ∧ (eccWords a n).any (fun w => setHas s.map.stgPoison w) then .error kPoison
    else .ok (readBytes s.map.staging a n)
  else s.rangeBytes y.pages off n

/-- An overlay's read of its image rewrites errors of staging as poison (R345). -/
def State.ovMet (s : State) (y : Xfer) (off n : Nat) : State :=
  if addrKind y.entry.addr = 257 then s.stgMet (addrStg y.entry.addr + off) n else s

/-- A piece of the page bodies of an overlay arrives (R111 step 4); one that cannot be read fails the transfer
part-way. Its granules land at the instruction memory's offsets of the window, and the signature counts them (R456;
DEDUCED, log 107). -/
def State.landOverlay (s : State) (p : Nat) (y : Xfer) (k : Nat) : Option State :=
  match s.ovBytes (s.coreAt p) y 64 (512 * k) 512 with
  | .error _ => some ((s.ovMet y (64 + 512 * k) 512).takeFree.fail p y.entry kCheck)
  | .ok bs => some ((s.onCoreAt p (fun c => (c.putPiece k bs).signPiece k bs)).endPiece p y.entry k)

/-- An XPF whose range is translated checks its slot and is accepted (R292). -/
def State.acceptPrefetch (s : State) (p : Nat) (y : Xfer) : State :=
  let x := y.entry
  match (List.range (x.count / 16)).find? (fun j => s.stgFull (addrStg x.addr2 / 16 + j)) with
  | some j => s.refuse p x kFeFull (x.addr2 + 16 * j)
  | none =>
    let d : Drain :=
      { core := p, chan := x.chan, id := x.xid, ctx := (s.coreAt p).ctx, phase := s.iris.phase
        slot := addrStg x.addr2, pages := y.pages, left := List.range (x.count / 16), bad := [] }
    { s with map := { s.map with fills := s.map.fills ++ [d] } }.onXfer p x.chan x.xid (fun y => { y with pieces := [] })

/-! ## Landing -/

/-- The cores whose windows a piece reads or writes have their view of the exchange (R312, R366). -/
def State.viewsThere (s : State) (c : Core) (x : Entry) (k : Nat) : Bool :=
  let there := fun l =>
    match s.memberCore c l with
    | some q => !setHas s.iris.deliver q
    | none => true
  match x.instr with
  | .xput .. => there (addrCore x.addr)
  | .xget .. => addrKind x.addr == 261 || there (addrCore x.addr)
  | .xbc .. => there (addrLow x.addr + k / 65536)
  | .xldg .. => (List.range (addrSize x.addr)).all (fun i => there (addrLow x.addr + i))
  | _ => true

/-- Transfer a of a core precedes transfer b in agent order because it was dispatched in an earlier exchange, neither of
them deferred (R317), and has still something to do. -/
def Xfer.precedes (a b : Xfer) : Bool :=
  decide (a.entry.phase.toNat < b.entry.phase.toNat) && !a.late && !b.late && !a.landedAll

/-- Transfer b of a core follows, in agent order, a transfer that is not done (R317), or an acquire of an earlier exchange
whose fill is under way (R323, R326). -/
def State.follows (s : State) (c : Core) (b : Xfer) : Bool :=
  c.xfers.any (fun a => a.precedes b) ||
  s.map.fills.any (fun d => d.core == c.phys && d.acquires && !b.late && decide (d.phase.toNat < b.entry.phase.toNat))

/-- The failure of a transfer that waits for those that it follows: where it arose, and its kind. -/
def Xfer.stopped (y : Xfer) : Option (PageMap × Nat) :=
  y.pages.findSome? (fun m =>
    match m.res with
    | .fail k => some (m, k)
    | _ => none)

/-- Piece k of a begun transfer of core p, whose range is translated or has failed, may act: those that it follows are done
(R317, R326). -/
def State.pieceDue (s : State) (p : Nat) (y : Xfer) (k : Nat) : Bool :=
  y.pieces.contains k && (y.stopped.isSome || !y.pages.any (fun m => m.res == .waiting)) &&
  s.viewsThere (s.coreAt p) y.entry k && !s.follows (s.coreAt p) y

/-- A transfer ends where it failed before any piece of the part that failed was sent (R286, R292, R294, R355). Of an
overlay's page bodies, the pieces that lie wholly below the part that fails have been written, and none above it (DESIGN
CHOICE, log 123). -/
def State.stopXfer (s : State) (p : Nat) (y : Xfer) (m : PageMap) (kind : Nat) : State :=
  let x := y.entry
  let c := s.coreAt p
  match x.instr with
  | .xst .. => s.refuse p x kind m.va
  | .xpf .. =>
    let g := addrStg x.addr2 / 16
    if (List.range (x.count / 16)).any (fun j => s.stgFull (g + j)) then s.refuse p x kind m.va
    else
      let left := List.range (m.off / 16)
      let rest := List.range' (m.off / 16) (x.count / 16 - m.off / 16)
      let s := rest.foldl (fun s j => s.poisonPlace c x (.staging (g + j))) s
      let d : Drain :=
        { core := p, chan := x.chan, id := x.xid, ctx := c.ctx, phase := s.iris.phase, slot := addrStg x.addr2
          pages := y.pages, left := left, bad := [] }
      let s := if left.isEmpty then s else { s with map := { s.map with fills := s.map.fills ++ [d] } }
      s.refuse p x kind m.va
  | .xovl .. =>
    let s := ((y.pieces.filter (fun k => decide (y.stage = 1 ∧ 512 * (k + 1) ≤ m.off))).foldl
      (fun s k => (s.landOverlay p y k).getD s) s)
    s.failAt p x (if y.stage = 1 then kCheck else kind) 0xFF m.va
  | _ => s.failAt p x kind 0xFF m.va

/-- A transfer has failed before its pieces are sent: it ends, behind those that it follows (R317). -/
def State.stop (s : State) (p : Nat) (y : Xfer) (m : PageMap) (kind : Nat) : State :=
  let x := y.entry
  if s.follows (s.coreAt p) y then
    s.onXfer p x.chan x.xid (fun y =>
      { y with pages := y.pages.map (fun n => if n.off = m.off then { n with res := .fail kind } else n)
               pieces := if y.pieces.isEmpty then [0] else y.pieces })
  else s.stopXfer p y m kind

/-- What landing piece k of a begun transfer of core p does; none where it is not due. -/
def State.landPiece (s : State) (p : Nat) (y : Xfer) (k : Nat) : Option State :=
  if !s.pieceDue p y k then none
  else match y.stopped with
  | some (m, kind) => some (s.stopXfer p y m kind)
  | none =>
    match y.entry.instr with
    | .xldg .. => s.landReduce p y k
    | .xatmGrp .. | .xatmGang .. | .xatmDev .. | .xatmSys .. => s.landAtom p y k
    | .xenc .. => s.landEncode p y k
    | .xdec .. => s.landDecode p y k
    | .xsig .. => s.landSignal p y k
    | .xlaunch .. => s.landLaunch p y k
    | .xrdev .. => s.landContribution p y k false
    | .xovl .. => s.landOverlay p y k
    | .xpf .. => some (s.acceptPrefetch p y)
    | _ => s.landMove p y k

/-- TRANSFER_PIECE_LANDING (R285): piece k of the begun transfer number t of core p. -/
def execTransferPieceLanding (p t k : Nat) (s : State) : Out :=
  onCore s p (fun c s => c.xfers[t]?.bind (fun y => s.landPiece p y k))

/-- Words that a link's error has poisoned arrive at a place (R431, R345): as poison that travels, their bytes free. -/
def State.spoilPlace (s : State) (p : Nat) (x : Entry) (pl : Place) : State :=
  match pl with
  | .window _ o => (s.sendPoison p x pl (s.freeGranule o, [0, 1])).takeFree
  | .staging _ => s.poisonPlace (s.coreAt p) x pl

/-- An uncorrectable error on a mesh link (R431): the piece's words arrive poisoned, and the transfer fails
with POISON. -/
def State.spoilPiece (s : State) (p : Nat) (y : Xfer) (k : Nat) : Option State :=
  if !s.pieceDue p y k ∨ y.stopped.isSome ∨ (s.sources (s.coreAt p) y.entry k).contains .wait then none
  else
    let s := { s with mgmt := { s.mgmt with linkErrors := s.mgmt.linkErrors + 1 } }
    match y.entry.instr with
    | .xrdev .. => s.landContribution p y k true
    | _ =>
      let a := s.pieceAddr p y.entry k 0
      let s := s.takeSources p y k
      let s := (s.destPlaces (s.coreAt p) y.entry k).foldl (fun s pl => s.spoilPlace p y.entry pl) s
      some ((s.endPiece p y.entry k).failAt p y.entry kPoison 0xFF a)

/-- MESH_LINK_UNCORRECTABLE_ERROR (R431). -/
def execMeshLinkUncorrectableError (p t k : Nat) (s : State) : Out :=
  onCore s p (fun c s => c.xfers[t]?.bind (fun y => s.spoilPiece p y k))

/-- The write-back that an XST has queued once its bytes lie in the slot (R294). -/
def State.queueWriteBack (s : State) (c : Core) (y : Xfer) : State :=
  let x := y.entry
  match x.instr with
  | .xst .. =>
    if y.failed ∨ x.count = 0 then s
    else
      let d : Drain :=
        { core := c.phys, chan := x.chan, id := x.xid, ctx := c.ctx, phase := s.iris.phase
          slot := addrStg x.addr, pages := y.pages, left := List.range (x.count / 16), bad := [] }
      let before := s.map.sdStores.contains (c.phys, x.chan, x.xid)
      { s with map := { s.map with
          backs := s.map.backs ++ [d], sdBefore := if before then s.map.sdBefore ++ [d] else s.map.sdBefore } }
  | _ => s

/-- TRANSFER_COMPLETE (R277): the first begun transfer of core p, in the order begun, of which nothing
remains. -/
def execTransferComplete (p : Nat) (s : State) : Out :=
  onCore s p (fun c s => (c.xfers.find? (·.landedAll)).map (fun y =>
    (s.queueWriteBack c y).setCore p (c.completeXfer y)))

end Sys2Proof.Machine
end

