-- ==== Sys2Proof/Machine/Begin.lean ====
section
/-! DEFINITION. How the exchange engine begins its instructions (09 R276, R279, R289 to R310): the checks at
the beginning, translation with its walks (R355, R358), deferral, waits, fences and overlay loads. -/

namespace Sys2Proof.Machine

/-! ## Translation of a transfer's range -/

/-- The map unit, the address space and the direction of a transfer's translation (R292, R294, R351), and
whether a host page is permitted (R300). -/
structure XlateUse where
  unit : Nat
  write : Bool
  hostOk : Bool
deriving DecidableEq, Repr

/-- How a transfer translates its virtual range. -/
def xlateUse (x : Entry) : XlateUse :=
  match x.instr with
  | .xpf .. => { unit := addrStg x.addr2 / 0x800000, write := false, hostOk := true }
  | .xst .. => { unit := addrStg x.addr / 0x800000, write := true, hostOk := true }
  | .xatmGrp _ o .. | .xatmGang _ o .. | .xatmDev _ o .. | .xatmSys _ o .. =>
    { unit := unitOf (addrVa x.addr), write := true, hostOk := o == 0 || o == 4 || o == 5 }
  | _ => { unit := unitOf (addrVa x.addr), write := false, hostOk := true }

/-- The 64 KiB parts of a virtual range, none of them translated yet. -/
def waitingParts (va n : Nat) : List PageMap :=
  (rangeParts va n).map (fun r => { off := r.1, len := r.2.1, va := r.2.2, res := .waiting })

/-- Set the result of the part at an offset. -/
def setPart (off : Nat) (r : PageResult) (ps : List PageMap) : List PageMap :=
  ps.map (fun m => if m.off = off then { m with res := r } else m)

/-- The translation of a part of a transfer's range fails: it is reported at once (R355), and the transfer ends (R286). -/
def State.xlateFail (s : State) (p : Nat) (y : Xfer) (m : PageMap) (kind : Nat) : State :=
  let c := s.coreAt p
  (s.mapFault c.ctx y.entry.chan c.csr.asid.toNat kind p m.va).stop p y m kind

/-- The whole range of a transfer is translated: an XPF checks its slot and is accepted (R292), behind what
it follows, as one step that stands for a piece (R317). -/
def State.xlateDone (s : State) (p : Nat) (y : Xfer) : State :=
  let x := y.entry
  match x.instr with
  | .xpf .. =>
    if s.follows (s.coreAt p) y then s.onXfer p x.chan x.xid (fun y => { y with pieces := [0] })
    else s.acceptPrefetch p y
  | _ => s

/-- Translate what waits of a transfer's range, part by part (R355, R358): a part that misses the TLB starts
a walk, which freezes the chip. The fuel is the number of parts. -/
def State.xlateOn (s : State) (p ch : Nat) (id : Word) : Nat → State
  | 0 => s
  | n + 1 =>
    match (s.coreAt p).xfer ch id with
    | none => s
    | some y =>
      match y.pages.find? (fun m => m.res == .waiting) with
      | none => s.xlateDone p y
      | some m =>
        let u := xlateUse y.entry
        let asid := (s.coreAt p).csr.asid.toNat
        match s.tlbLookup u.unit asid m.va 0 with
        | none =>
          let w : Walk := { unit := u.unit, asid := asid, va := m.va, pieces := 0, core := p, chan := ch, id := id }
          { s with map := { s.map with walks := s.map.walks ++ [w] } }
        | some (s, r) =>
          let s := s.countPart u.unit asid m.off m.len m.va
          match pageResult u.write u.hostOk m.va r with
          | .fail k => s.xlateFail p y m k
          | res => (s.onXfer p ch id (fun y => { y with pages := setPart m.off res y.pages })).xlateOn p ch id n

/-- Translate n bytes from a virtual address for a begun transfer. -/
def State.startXlate (s : State) (p : Nat) (x : Entry) (va n : Nat) : State :=
  let ps := waitingParts va n
  (s.onXfer p x.chan x.xid (fun y => { y with pages := ps })).xlateOn p x.chan x.xid (ps.length + 1)

/-- Walk k of those outstanding ends (R354, R358): its transfer goes on or fails. A result that comes for a
transfer that has ended only loads the TLB. -/
def State.endWalk (s : State) (w : Walk) : State :=
  let s := { s with map := { s.map with walks := s.map.walks.erase w } }
  let r := s.walk w.unit w.asid w.va 0
  let s := r.1
  match (s.coreAt w.core).xfer w.chan w.id with
  | none => s
  | some y =>
    match y.pages.find? (fun m => m.res == .waiting && m.va == w.va) with
    | none => s
    | some m =>
      let u := xlateUse y.entry
      let s := s.countPart w.unit w.asid m.off m.len m.va
      match pageResult u.write u.hostOk m.va r.2 with
      | .fail k => s.xlateFail w.core y m k
      | res =>
        (s.onXfer w.core w.chan w.id (fun y => { y with pages := setPart m.off res y.pages })).xlateOn
          w.core w.chan w.id (y.pages.length + 1)

/-- WALK_END (R358): the freeze ends with the last outstanding walk. -/
def execWalkEnd (k : Nat) (s : State) : Out := onDevice s (fun s => (s.map.walks[k]?).map s.endWalk)

/-! ## Local addresses -/

/-- The core-local addresses of a handle that a transfer names, with whether it writes them, in increasing
byte order (R276): by granules of 16 bytes where the handle is a data handle. -/
def handleAddrs (x : Entry) : List (Nat × Bool) :=
  let data := fun (h : HandleBits) (w : Bool) => (List.range (hBytes h / 16)).map (fun j => (hGranule h j, w))
  let elems := fun (h : HandleBits) => (List.range (hBytes h)).map (fun k => (hByteAddr h k, false))
  match x.instr with
  | .xput .. | .xbc .. | .xst .. | .xenc .. | .xrdev .. => data (x.h 0) false
  | .xget .. | .xld .. | .xldg .. | .xdec .. => data (x.h 0) true
  | .xgth .. => data (x.h 0) true ++ elems (x.h 1)
  | .xatmGrp .. | .xatmGang .. | .xatmDev .. | .xatmSys .. =>
    [(hBase (x.h 0), false), ((hBase (x.h 0) + 16) % 2 ^ 20, true)]
  | .xlaunch .. => elems (x.h 0)
  | _ => []

/-- The ENGINE fault of a local address (R276): sub-code and address. -/
def localFault (x : Entry) : Option (Nat × Nat) :=
  (handleAddrs x).findSome? (fun a =>
    if !localMapped a.1 then some (0, a.1) else if a.2 && inWindow a.1 then some (1, a.1) else none)

/-! ## Targets -/

/-- Where a transfer stands towards a logical core: to be moved now, deferred (R310), or without a present
member (R289, R290). -/
inductive Reach where
  | now | later | none
deriving DecidableEq, Repr

/-- What holds for logical core l in the running exchange. -/
def State.reachOf (s : State) (c : Core) (l : Nat) : Reach :=
  match s.memberCore c l with
  | none => .none
  | some q =>
    if (s.coreAt q).pst = .absent then .none
    else if s.straggles q ∨ !setHas s.iris.inExchange q then .later
    else .now

/-- A sliced gang's transfers name only the issuing logical core (R395): K of a core's mirror entry is above
1 in deterministic mode. -/
def State.sliced (s : State) (c : Core) : Bool :=
  s.det && decide (1 < bits (s.mirrorEntry c.csr.coreL.toNat) 19 16)

/-- The logical cores that a transfer names. -/
def namedCores (x : Entry) : List Nat :=
  match addrKind x.addr with
  | 1 => [addrCore x.addr]
  | 2 => List.range' (addrLow x.addr) (addrSize x.addr)
  | _ => []

/-- The failure of a transfer that is known at its beginning: PERM for a window offset (R288; for the local offsets of a group
address too: DESIGN CHOICE, log 119), RESOURCE for a
core that no member holds or that a sliced gang may not name (R289, R395), PERM for staging outside the
context's ranges (R350), and the checks of the codecs and of the peer unit (R418, R441). -/
def State.beginFail (s : State) (c : Core) (x : Entry) : Option Nat :=
  let w := fun write => if windowAllows write x.priv (addrOff x.addr) x.count then none else some kPerm
  let cut := if s.sliced c && (namedCores x).any (· != c.csr.coreL.toNat) then some kResource else none
  let gone := if s.reachOf c (addrCore x.addr) = .none then some kResource else none
  let stg := fun a => if s.stgOwned c.ctx (addrStg a) x.count then none else some kPerm
  match x.instr with
  | .xput .. => (w true).orElse (fun _ => cut.orElse (fun _ => gone))
  | .xget .. => if addrKind x.addr = 261 then none else (w false).orElse (fun _ => cut.orElse (fun _ => gone))
  | .xbc .. => (w true).orElse (fun _ => cut)
  | .xldg .. => (w false).orElse (fun _ => cut)
  | .xld .. | .xst .. => stg x.addr
  | .xpf .. => stg x.addr2
  | .xovl .. => if addrKind x.addr = 257 then stg x.addr else none
  | .xenc .. | .xdec .. => s.codecCheck c x.addr (x.h 0)
  | .xrdev _ _ _ _ m =>
    s.rdevCheck c.ctx (bits x.addr 47 24) (x.addr % 2 ^ 24) x.count m.toNat (hFmt (x.h 0))
  | _ => none

/-- The pieces of a transfer of n rows of its first handle from piece number `first` on (R276, R301, R302). -/
def rowPieces (x : Entry) (first : Nat) : List Nat :=
  ((List.range x.count).flatMap (fun r =>
    (List.range (pieceCount (hRowBytes (x.h 0)))).map (fun k => 65536 * r + k))).drop first

/-- The pieces of a transfer, those to be moved now and those deferred, from piece `from` on (R276, R290,
R310). -/
def State.piecesOf (s : State) (c : Core) (x : Entry) (first : Nat) : List Nat × List Nat :=
  let all := (List.range' first (pieceCount x.count - first))
  let toward := fun (l : Nat) => if s.reachOf c l = .later then (([] : List Nat), all) else (all, [])
  match x.instr with
  | .xput .. => toward (addrCore x.addr)
  | .xget .. => if addrKind x.addr = 261 then (all, []) else toward (addrCore x.addr)
  | .xbc .. =>
    let of := fun (r : Reach) => ((List.range (addrSize x.addr)).filter (fun i =>
      s.reachOf c (addrLow x.addr + i) == r)).flatMap (fun i => all.map (fun k => 65536 * i + k))
    (of .now, of .later)
  | .xgth .. | .xenc .. => (rowPieces x first, [])
  | .xld .. | .xst .. | .xldg .. | .xdec .. | .xrdev .. => (all, [])
  | .xatmGrp .. | .xatmGang .. | .xatmDev .. | .xatmSys .. | .xsig .. | .xlaunch .. => ([0], [])
  | _ => ([], [])

/-- A transfer that moves nothing: its count is 0, or a handle describes no elements (R21, R283). -/
def movesNothing (x : Entry) : Bool :=
  match x.instr with
  | .xsig .. | .xovl .. => false
  | .xpf .. => x.count == 0
  | _ => x.count == 0 || x.noElements

/-! ## Beginning -/

/-- The exchange engine of a core may begin instructions: its view is odd and it takes part, it is neither
HALTED, nor about to halt after a step, nor frozen, nor is the chip (R279, R358, R447, R451). -/
def State.mayBeginE (s : State) (c : Core) : Bool :=
  !s.stilled && !c.enginesHold && !c.engE.frozen && (c.pst == .exchange || c.pst == .xready)

/-- An atomic of order SC (R96). -/
def isSC (i : Instr) : Bool :=
  match atomOf i with
  | some (_, m) => m == 4
  | none => false

/-- The condition of an instruction of its own (R276): XSIG (R304), XENC (R418), SC atomics (R329); waits and
fences begin by steps of their own. -/
def ownCondition (c : Core) (x : Entry) : Bool :=
  match x.instr with
  | .xwait .. | .xwaitL .. | .xfence .. => false
  | .xsig .. => c.idDone x.chan (x.xid - 1)
  | .xenc .. => !c.xfers.any (fun y =>
      match y.entry.instr with
      | .xenc .. => codecOf y.entry.addr == codecOf x.addr && planeOf y.entry.addr == planeOf x.addr
      | _ => false)
  | _ => !isSC x.instr || !c.xfers.any (fun y => isSC y.entry.instr)

/-- Mark the first queued entry begun. -/
def beginFirst : List Entry → List Entry
  | [] => []
  | x :: t => if x.stage = .queued then { x with stage := .begun } :: t else x :: beginFirst t

/-- A transfer begins (R276): it stands among the begun ones with its pieces, fails where that is known
already, and translates its virtual range. Of the transfers that fail here an XST and an XPF write nothing, and the others poison
their destinations as R286 step 1 says (DESIGN CHOICE, log 124). -/
def State.beginXfer (s : State) (p : Nat) (x : Entry) : State :=
  let c := s.coreAt p
  let x := { x with stage := .begun }
  let ps := if movesNothing x then ([], []) else s.piecesOf c x c.engE.mpc.toNat
  let y : Xfer :=
    { entry := x, pieces := ps.1, deferred := ps.2, acks := [], pages := [], failed := false, counted := false
      badMembers := [], void := false, stage := 0, late := !ps.2.isEmpty }
  let s := s.setCore p { c with
    engE := { c.engE with queue := beginFirst c.engE.queue, mpc := 0 }
    xfers := c.xfers ++ [y] }
  if movesNothing x then s
  else match s.beginFail c x with
    | some k =>
      (match x.instr with
       | .xst .. => s.refuse p x k x.addr
       | .xpf .. => s.refuse p x k x.addr2
       | _ =>
         let m : PageMap := { off := 0, len := x.count, va := x.addr, res := .fail k }
         let s := s.onXfer p x.chan x.xid (fun y => { y with deferred := [], pages := [m] })
         s.stop p { y with deferred := [], pages := [m] } m k)
    | none =>
      let s := if ps.2.isEmpty then s else s.onCoreAt p (fun c => c.setVstat 0x1000)
      match x.instr with
      | .xpf .. => s.startXlate p x (addrVa x.addr) x.count
      | .xst .. => s.startXlate p x (addrVa x.addr2) x.count
      | .xatmGrp .. | .xatmGang .. | .xatmDev .. | .xatmSys .. => s.startXlate p x (addrVa x.addr) 4
      | .xlaunch .. => s.startXlate p x (addrVa x.addr) 128
      | .xovl .. => if addrKind x.addr = 0 then s.startXlate p x (addrVa x.addr) 64 else s
      | .xenc .. => s.putCodec (codecOf x.addr) ((s.codec (codecOf x.addr)).dropPart (planeOf x.addr))
      | _ => s

/-- XARM (R307): it completes at its beginning. -/
def Core.arm (c : Core) (x : Entry) : Core :=
  let k := x.num 0
  ({ c with csr := { c.csr with
      land := c.csr.land.setIfInBounds k ((c.csr.land[k]?.getD 0) + BitVec.ofNat 24 (x.num 1)) } } : Core).complete .E

/-- The exchange engine begins an instruction, or freezes at it (R276, R196). One with a handle that describes no elements
touches no memory (R21). -/
def State.beginE (s : State) (p : Nat) (x : Entry) : State :=
  match if x.noElements then none else localFault x with
  | some (sub, a) => s.onCoreAt p (fun c => (c.setEng .E { c.engE with mpc := 0 }).freeze .E 0x0A sub (BitVec.ofNat 32 a))
  | none =>
    match x.instr with
    | .xarm .. | .xarmImm .. => s.onCoreAt p (fun c => c.arm x)
    | _ => s.beginXfer p x

/-- E_INSTRUCTION_BEGIN (R276) on core p. -/
def execEInstructionBegin (p : Nat) (s : State) : Out :=
  onCore s p (fun c s =>
    match c.current .E with
    | none => none
    | some x =>
      if s.mayBeginE c && x.waits.all (waitDone c) && ownCondition c x then some (s.beginE p x) else none)

/-! ## Waits and fences -/

/-- An XWAIT is satisfied (R308): where its channel's fault record holds an identifier up to x, the engine
freezes with XFAULT, else the XWAIT completes. -/
def Core.endWait (c : Core) (x : Entry) : Option Core :=
  match x.instr with
  | .xwaitL .. => if (c.csr.land[x.num 0]?.getD 0) = 0 then some (c.complete .E) else none
  | .xwait _ _ ch =>
    let id : Word := BitVec.ofNat 32 (x.num 0)
    if !c.idDone ch.toNat id then none
    else
      let r := (c.faultRec[ch.toNat]?.getD 0).toNat
      let first : Word := BitVec.ofNat 32 r
      if bits r 63 48 ≠ 0 ∧ (id - first).toNat < 2 ^ 31 then
        some ((c.setEng .E { c.engE with mpc := 1 }).freeze .E 0x0B 5 first)
      else some (c.complete .E)
  | _ => none

/-- XWAIT_SATISFIED (R308) on core p. -/
def execXwaitSatisfied (p : Nat) (s : State) : Out :=
  onCore s p (fun c s =>
    match c.current .E with
    | none => none
    | some x =>
      if s.mayBeginE c && x.waits.all (waitDone c) then (c.endWait x).map (s.setCore p) else none)

/-- XFENCE_DONE (R309) on core p: every identifier of the channel below the captured one is done. -/
def execXfenceDone (p : Nat) (s : State) : Out :=
  onCore s p (fun c s =>
    match c.current .E with
    | none => none
    | some x =>
      match x.instr with
      | .xfence _ ch =>
        if s.mayBeginE c && x.waits.all (waitDone c) && c.idDone ch.toNat (BitVec.ofNat 32 (x.num 0) - 1) then
          some (s.setCore p (c.complete .E))
        else none
      | _ => none)

/-! ## Overlays -/

/-- The header of an overlay has arrived (R111 steps 1 to 3, R112, R303). -/
def State.headOverlay (s : State) (p : Nat) (y : Xfer) : State :=
  let x := y.entry
  let c := s.coreAt p
  match s.ovBytes c y 0 0 64 with
  | .error k => (s.ovMet y 0 64).takeFree.fail p x k
  | .ok h =>
    if !ovAccepted h (x.priv && c.csr.supok) then s.fail p x kHdr
    else
      let s := s.onCoreAt p (fun c => { c.openOverlay h with warm := c.warm.map (fun w => (w.1, 2 ^ 52)) })
      let s := s.onXfer p x.chan x.xid (fun y =>
        { y with stage := 1, pages := [], pieces := List.range (pieceCount (ovBodyLen h)) })
      if addrKind x.addr = 0 then s.startXlate p x ((addrVa x.addr + 64) % 2 ^ 52) (ovBodyLen h) else s

/-- The begun XOVL that stands first and has not finished (R111): a later one waits. -/
def Core.firstOverlay (c : Core) : Option Xfer :=
  c.xfers.find? (fun y =>
    match y.entry.instr with
    | .xovl .. => y.stage != 2 && !y.failed
    | _ => false)

/-- XOVL_HEADER_ARRIVES (R111) on core p, behind what the XOVL follows (R317, R326). -/
def execXovlHeaderArrives (p : Nat) (s : State) : Out :=
  onCore s p (fun c s => c.firstOverlay.bind (fun y =>
    if y.stage = 0 ∧ y.stopped.isNone ∧ !y.pages.any (fun m => m.res == .waiting) ∧ !s.follows c y then
      some (s.headOverlay p y)
    else none))

/-- The whole image of an overlay has arrived (R111 steps 5 and 6, R303). -/
def State.bodyOverlay (s : State) (p : Nat) (y : Xfer) : State :=
  let x := y.entry
  let r := (s.coreAt p).closeOverlay
  let s := s.setCore p r.1
  if r.2 then s.onXfer p x.chan x.xid (fun y => { y with stage := 2 }) else s.fail p x kCheck

/-- XOVL_IMAGE_COMPLETE (R111) on core p. -/
def execXovlImageComplete (p : Nat) (s : State) : Out :=
  onCore s p (fun c s => c.firstOverlay.bind (fun y =>
    if y.stage = 1 ∧ y.pieces.isEmpty ∧ !y.pages.any (fun m => m.res == .waiting) then some (s.bodyOverlay p y)
    else none))

/-! ## Deferred transfers -/

/-- The deferred pieces of a transfer of core p begin where their far end takes part (R310): those that go
towards a core that has ended meanwhile have failed already (R392). -/
def State.resumeDeferred (s : State) (p : Nat) (y : Xfer) : State :=
  let c := s.coreAt p
  let x := y.entry
  let at' := fun (k : Nat) => match x.instr with
    | .xbc .. => s.reachOf c (addrLow x.addr + k / 65536)
    | _ => s.reachOf c (addrCore x.addr)
  let go := y.deferred.filter (fun k => at' k == .now)
  if go.isEmpty then s
  else s.onXfer p x.chan x.xid (fun y =>
    { y with pieces := y.pieces ++ go, deferred := y.deferred.filter (fun k => at' k != .now) })

/-- DEFERRED_TRANSFER_BEGIN (R310) on core p, as its view of an exchange arrives. -/
def State.startDeferred (s : State) (p : Nat) : State :=
  (s.coreAt p).xfers.foldl (fun s y => s.resumeDeferred p y) s

end Sys2Proof.Machine
end

