-- ==== Sys2Proof/Machine/Codecs.lean ====
section
/-! DEFINITION. The codec engines (14 R413 to R427): sessions, block rows, chunk records, coalesced messages, and
decoding. What they compute as bitstream or picture is free (log 11). -/

namespace Sys2Proof.Machine

/-! ## Sessions -/

/-- The fields of CCFG and CCTX (R413, R414). -/
def Codec.kind (x : Codec) : Nat := bits x.cfg.toNat 3 0
def Codec.level (x : Codec) : Nat := bits x.cfg.toNat 11 4
def Codec.rc (x : Codec) : Nat := bits x.cfg.toNat 13 12
def Codec.nref (x : Codec) : Nat := bits x.cfg.toNat 16 14
def Codec.ctx (x : Codec) : Nat := bits x.cctx.toNat 5 0
def Codec.asid (x : Codec) : Nat := bits x.cctx.toNat 17 6

/-- The highest level codes of R416. -/
def levelLimit (enc : Bool) (kind : Nat) : Nat :=
  if kind = 0 then (if enc then 52 else 62)
  else if kind ≤ 2 then (if enc then 153 else 183)
  else if kind = 3 then (if enc then 83 else 99)
  else (if enc then 13 else 17)

/-- The size limits of R415: the largest WIDTH and HEIGHT, and the largest product. -/
def sizeLimit (enc : Bool) : Nat × Nat := if enc then (4096, 8912896) else (8192, 35651584)

/-- The bytes of a reference slot (R420). -/
def Codec.slotSize (x : Codec) : Nat := ceilDiv (x.width * x.height * 3) 0x10000 * 0x10000

/-- The reference slots of an engine (R420). -/
def Codec.slots (x : Codec) (enc : Bool) : Nat := if enc then x.nref + 1 else 9

/-- The pictures that the spec itself puts within a level (R416, R493): CODEC, LEVEL, WIDTH and HEIGHT. -/
def levelPictures : List (Nat × Nat × Nat × Nat) :=
  [(0, 52, 3840, 2160), (0, 62, 7680, 4320), (2, 60, 128, 128)]

/-- A picture lies within a level's limits (R415): one no larger than a picture of the spec within that level or a lower
one, or else as the standard says (log 11). -/
def levelTakes (kind level w h : Nat) : Bool :=
  levelPictures.any (fun p => p.1 == kind && decide (p.2.1 ≤ level ∧ w ≤ p.2.2.1 ∧ h ≤ p.2.2.2)) ||
  Config.levelAdmits kind level w h

/-- The conditions under which a write that sets EN is refused (R415). -/
def State.enableRefused (s : State) (x : Codec) (enc : Bool) : Bool :=
  decide (6 ≤ x.kind) || (enc && (x.rc == 3 || x.nref == 0 || decide (4 < x.nref))) ||
  decide (levelLimit enc x.kind < x.level) ||
  x.width % 16 != 0 || decide (x.width < 128 ∨ (sizeLimit enc).1 < x.width) ||
  x.height % 2 != 0 || decide (x.height < 128 ∨ (sizeLimit enc).1 < x.height) ||
  decide ((sizeLimit enc).2 < x.width * x.height) ||
  !levelTakes x.kind x.level x.width x.height ||
  !s.ctxLive x.ctx || decide (x.refsz.toNat < x.slots enc * x.slotSize)

/-- A write that sets EN (R415): a session begins, whose first picture is a key picture. -/
def State.enableCodec (s : State) (e : Nat) : State :=
  let x := s.codec e
  if 24 ≤ e ∨ x.en then s
  else if s.enableRefused x (decide (e < 16)) then s.putCodec e { x with rej := true }
  else s.putCodec e { x.abandon with en := true, picnum := 0, lastEnd := 0, keyNext := true }

/-- CODEC_ENABLE (R413, R415). -/
def execCodecEnable (e : Nat) (s : State) : Out := s.request 2 (fun s => s.enableCodec e)

/-- EN is cleared: the session ends. -/
def State.disableCodec (s : State) (e : Nat) : State :=
  if 24 ≤ e then s else s.putCodec e (s.codec e).abandon

/-- CODEC_DISABLE (R413, R427). -/
def execCodecDisable (e : Nat) (s : State) : Out := s.request 2 (fun s => s.disableCodec e)

/-! ## Access to memory -/

/-- Read n bytes of a session's address space; a failed translation is reported (R426). -/
def State.codecRead (s : State) (e va n : Nat) : State × Option (List Byte) :=
  let x := s.codec e
  match s.readFor (16 + e) x.ctx x.asid none va n with
  | (s, .ok bs) => (s, some bs)
  | (s, .error _) => (s, none)

/-- Write bytes of a session's address space; a failed translation is reported (R426). -/
def State.codecWrite (s : State) (e va : Nat) (bs : List Byte) : State × Bool :=
  let x := s.codec e
  match s.writeFor (16 + e) x.ctx x.asid none va bs with
  | (s, .ok _) => (s, true)
  | (s, .error _) => (s, false)

/-- A field of a frame-ring descriptor or of a chunk record (R421). -/
def ringField (r : List Byte) (off n : Nat) : Nat := natOfBytes ((r.drop off).take n)

/-! ## Coding -/

/-- The rows of a plane that block row r takes (R419). -/
def Codec.blockRows (x : Codec) (pl r : Nat) : Nat :=
  let h := if pl = 0 then 64 else 32
  min h (x.planeRows pl - h * r)

/-- The block rows of a picture (R419). -/
def Codec.blockCount (x : Codec) : Nat := ceilDiv x.height 64

/-- The first n rows of a plane's picture, up to its last one. -/
def upToLast : List PlaneRow → Nat → List PlaneRow
  | [], _ => []
  | _, 0 => []
  | r :: t, n + 1 => if r.last then [r] else r :: upToLast t n

/-- A plane has the n rows of a block row, or its picture's plane is complete (R419). -/
def PlaneQueue.has (q : PlaneQueue) (n : Nat) : Bool :=
  let rs := upToLast q.rows n
  q.ended || rs.length == n || rs.any (·.last)

/-- Take the n rows of a block row (R419). -/
def PlaneQueue.takeRows (q : PlaneQueue) (n : Nat) : PlaneQueue :=
  if q.ended then q
  else
    let rs := upToLast q.rows n
    { q with
      rows := q.rows.drop rs.length, taken := q.taken + rs.length
      ended := rs.any (·.last), short := rs.any (·.short)
      final := (rs.getLast?.map (·.samples)).getD q.final }

/-- The rows of samples that a block row is coded from (R419): where the plane ended early its last row repeats. -/
def PlaneQueue.codedRows (q : PlaneQueue) (n : Nat) : List (List Nat) :=
  if q.ended then List.replicate n q.final
  else
    let rs := (upToLast q.rows n).map (·.samples)
    rs ++ List.replicate (n - rs.length) (rs.getLast?.getD q.final)

/-- What an encoder codes of a sample (R417). -/
def Codec.codedSample (x : Codec) (v : Nat) : Nat := if x.kind = 0 ∨ x.kind = 4 then min 255 ((v + 2) / 4) else v

/-- The samples of block row r of the picture in progress, plane by plane (R417, R419). -/
def Codec.blockSamples (x : Codec) (r : Nat) : List (List Nat) :=
  [0, 1, 2].flatMap (fun pl => ((x.plane pl).codedRows (x.blockRows pl r)).map (·.map x.codedSample))

/-- TIME at which the rows that complete a plane entered, 0 where none does. -/
def PlaneQueue.lastTime (q : PlaneQueue) (n : Nat) : Nat :=
  if q.ended then 0
  else ((upToLast q.rows n).filter (·.last)).foldl (fun m r => max m r.time.toNat) 0

/-- A block row is coded (R419): its rows leave the queues. -/
def Codec.takeBlock (x : Codec) (r : Nat) : Codec :=
  let t := [0, 1, 2].foldl (fun m pl => max m ((x.plane pl).lastTime (x.blockRows pl r))) x.srctime.toNat
  [0, 1, 2].foldl (fun x pl => x.putPlane pl ((x.plane pl).takeRows (x.blockRows pl r)))
    { x with srctime := BitVec.ofNat 64 t }

/-- The bytes of a picture's bitstream, a free number: at least one, and at most 187,500 at level 2 of HEVC (R494; log
11). -/
def Codec.pictureBytes (x : Codec) (free : Nat) : Nat :=
  if (x.kind = 1 ∨ x.kind = 2) ∧ x.level = 60 then free % 187500 + 1 else free + 1

/-- The picture in progress, after its last block row: its chunks are written. -/
def Codec.startChunks (x : Codec) (left : Nat) (failed : Bool) : Codec :=
  { x with stage := .chunks (if failed then 0 else left) failed, held := false }

/-- What is left of an abandoned picture in a plane is dropped, and so are its rows still to come (R426). -/
def PlaneQueue.dropPicture (q : PlaneQueue) : PlaneQueue :=
  if q.ended then q
  else
    let rest := q.rows.dropWhile (fun r => !r.last)
    { q with rows := rest.drop 1, skip := rest.isEmpty, ended := true, short := rest.head?.any (·.short) }

/-- TIME at which the plane of an abandoned picture completed, 0 where it has not. -/
def PlaneQueue.dropTime (q : PlaneQueue) : Nat :=
  if q.ended then 0 else ((q.rows.find? (·.last)).map (·.time.toNat)).getD 0

/-- CODEC_MAP_FAULT (R426) of an encoder: the picture is abandoned. -/
def Codec.dropPicture (x : Codec) : Codec :=
  let t := [0, 1, 2].foldl (fun m pl => max m (x.plane pl).dropTime) x.srctime.toNat
  ([0, 1, 2].foldl (fun (x : Codec) pl => x.putPlane pl (x.plane pl).dropPicture)
    ({ x with srctime := BitVec.ofNat 64 t } : Codec)).startChunks 0 true

/-- The address of the reference slot of picture k (R420). -/
def Codec.slotAddr (x : Codec) (enc : Bool) (k : Nat) : Nat := x.ref.toNat + k % x.slots enc * x.slotSize

/-- Read the reference slots of the pictures before picture k, as far as they are kept (R420): whether every 64 KiB of
them could be read. The bytes only enter what is free (log 11). -/
def State.readSlots (s : State) (e : Nat) (enc : Bool) (k : Nat) : State × Bool :=
  let x := s.codec e
  let ks := (List.range (min k (x.slots enc - 1))).map (fun i => k - 1 - i)
  let vas := ks.flatMap (fun k => (List.range (x.slotSize / 0x10000)).map (fun i => x.slotAddr enc k + 0x10000 * i))
  vas.foldl (fun r va =>
    if r.2 then
      let t := r.1.codecRead e va 1
      (t.1, t.2.isSome)
    else r) (s, true)

/-- The bytes that an encoder makes of rows of samples. -/
def codedBytes (n : Nat) (rows : List (List Nat)) (a k : Nat) : List Byte :=
  (List.range k).map (fun i => Config.codedByte n rows (a + i))

/-- A picture is a key picture (R413, R426). -/
def Codec.keyPicture (x : Codec) : Bool :=
  x.keyNext || (x.gop.toNat % 2 ^ 16 != 0 && x.picnum % (x.gop.toNat % 2 ^ 16) == 0)

/-- Block row r of engine e is coded (R417, R419, R420, R426): but for a key picture with its references read. -/
def State.codeBlock (s : State) (e r : Nat) : State :=
  let x := s.codec e
  let rows := x.blockSamples r
  let va := x.slotAddr true x.picnum
  match if x.keyPicture then (s, true) else s.readSlots e true x.picnum with
  | (s, false) => s.putCodec e x.dropPicture
  | (s, true) =>
    match s.codecWrite e va (codedBytes s.nfree rows va x.slotSize) with
    | (s, false) => s.putCodec e x.dropPicture
    | (s, true) =>
      let x := { x.takeBlock r with stage := .coding (r + 1), coded := x.coded ++ rows }
      let x := if r + 1 = x.blockCount then x.startChunks (x.pictureBytes (Config.freeNat (s.nfree + 1))) false else x
      { s.putCodec e x with nfree := s.nfree + 2 }

/-- The block row that an encoder codes next. -/
def Codec.nextBlock (x : Codec) : Option Nat :=
  match x.stage with
  | .idle => some 0
  | .coding r => some r
  | .chunks .. => none

/-- ENCODE_BLOCK_ROW (R419) of encoder e: all the rows are present, or their planes complete. -/
def execEncodeBlockRow (e : Nat) (s : State) : Out :=
  onDevice s (fun s =>
    let x := s.codec e
    match x.nextBlock with
    | some r =>
      if e < 16 ∧ x.en ∧ [0, 1, 2].all (fun pl => (x.plane pl).has (x.blockRows pl r)) then some (s.codeBlock e r)
      else none
    | none => none)

/-! ## Chunks -/

/-- The fields of a frame ring (R421). -/
structure Ring where
  recBase : Nat
  nrec : Nat
  wr : Nat
  rd : Nat
  dataSize : Nat
  dataBase : Nat
  vec : Nat
  ccnt : Nat
  ctime : Nat
  sig : Nat
deriving DecidableEq, Repr

/-- A frame-ring descriptor (R421). -/
def ringOf (r : List Byte) : Ring :=
  { recBase := ringField r 0x00 8, nrec := ringField r 0x08 4, wr := ringField r 0x0C 4, rd := ringField r 0x10 4
    dataSize := ringField r 0x14 4, dataBase := ringField r 0x18 8, vec := ringField r 0x20 2
    ccnt := ringField r 0x22 1, ctime := ringField r 0x24 2, sig := ringField r 0x26 2 }

/-- The fields of a frame-ring descriptor that must be zero are (R7, R421). -/
def ringOk (r : List Byte) : Bool := ringField r 0x23 1 == 0 && ringField r 0x28 24 == 0

/-- The frame ring of an engine, read anew; none where it cannot be read or a field that must be zero is not (R7, log
93). -/
def State.codecRing (s : State) (e : Nat) : State × Option Ring :=
  match s.codecRead e (s.codec e).ring.toNat 64 with
  | (s, some r) => (s, if ringOk r then some (ringOf r) else none)
  | (s, none) => (s, none)

/-- Where record i of a ring lies (R421). -/
def Ring.recordAt (r : Ring) (i : Nat) : Nat := r.recBase + 32 * (i % r.nrec)

/-- The unconsumed records (R422): RDIDX up to WRIDX. -/
def Ring.pending (r : Ring) : Nat := (r.wr + 2 ^ 32 - r.rd) % 2 ^ 32

/-- The offset of a chunk of a length (R422). -/
def Ring.place (r : Ring) (lastEnd len : Nat) : Nat := if r.dataSize < lastEnd + len then 0 else lastEnd

/-- A chunk's bytes overlap that of an unconsumed record (R422 step 1), looking through n records from RDIDX; none where
a record cannot be read (R426). A record of LENGTH 0 has no bytes. The test reads OFFSET and LENGTH alone: a byte of the record
that must be zero and is not counts for nothing here (R7; DESIGN CHOICE, log 93). -/
def State.overlaps (s : State) (e : Nat) (r : Ring) (off len : Nat) : Nat → State × Option Bool
  | 0 => (s, some false)
  | n + 1 =>
    match s.codecRead e (r.recordAt (r.rd + n)) 32 with
    | (s, none) => (s, none)
    | (s, some bs) =>
      let o := ringField bs 0x08 4
      let l := ringField bs 0x0C 4
      if 0 < l ∧ 0 < len ∧ off < o + l ∧ o < off + len then (s, some true) else s.overlaps e r off len n

/-- Some plane of the picture ended early (R419). -/
def Codec.pictureShort (x : Codec) : Bool := [0, 1, 2].any (fun pl => (x.plane pl).short)

/-- A chunk record (R421). -/
def Codec.record (x : Codec) (failed last : Bool) (off len time : Nat) : List Byte :=
  bytesOfNat 4 x.picnum ++ bytesOfNat 1 (bit failed) ++
  bytesOfNat 1 (bit x.keyPicture + 2 * bit last + 4 * bit x.pictureShort) ++ bytesOfNat 2 0 ++
  bytesOfNat 4 off ++ bytesOfNat 4 len ++ bytesOfNat 8 time ++ bytesOfNat 8 x.srctime.toNat

/-- The picture is over: the planes go on to the next one. PICS counts it where it is finished (R419), not abandoned. -/
def Codec.finishPicture (x : Codec) (failed : Bool) : Codec :=
  let next := fun (q : PlaneQueue) =>
    { q with taken := 0, ended := false, short := false, final := [], ref := if q.made.isEmpty then q.ref else q.made, made := [] }
  { x with
    stage := .idle, pics := if failed then x.pics else (x.pics + 1) % 2 ^ 16, picnum := (x.picnum + 1) % 2 ^ 32
    keyNext := failed, coded := [], held := false, srctime := 0, planes := x.planes.map next }

/-- Pending records are those of the ring of an engine's session, whichever engine wrote them (R423). -/
def PendingRecords.ofSession (q : PendingRecords) (x : Codec) : Bool := q.asid == x.asid && q.ring == x.ring

/-- The pending records of the ring of engine e's session, after it has written one more (R423). -/
def State.addPending (s : State) (e : Nat) (r : Ring) : PendingRecords :=
  let x := s.codec e
  let old := s.ringPend.find? (·.ofSession x)
  { asid := x.asid, ring := x.ring, engine := e, count := (old.map (·.count)).getD 0 + 1
    since := (old.map (·.since)).getD s.time, vec := r.vec, ctime := r.ctime }

/-- A record is counted for coalescing (R423), ring by ring: the message is sent when CCNT is reached. -/
def State.countRecord (s : State) (e : Nat) (r : Ring) : State :=
  let q := s.addPending e r
  let rest := s.ringPend.filter (fun p => !p.ofSession (s.codec e))
  if r.vec ≠ 0xFFFF ∧ r.ccnt ≠ 0 ∧ r.ccnt ≤ q.count then State.sendMsix { s with ringPend := rest } r.vec
  else { s with ringPend := rest ++ [q] }

/-- An access for the record of a picture has failed (R426): the picture is abandoned, and where it was already, it is over
with its slot completed. -/
def State.failRecord (s : State) (e : Nat) (x : Codec) (sig : Nat) (failed : Bool) : State :=
  if failed then (s.putCodec e (x.finishPicture true)).complete sig 1 else s.putCodec e x.dropPicture

/-- The chunk's record is performed (R422 steps 3 to 5, R423). -/
def State.performRecord (s : State) (e : Nat) (r : Ring) (left : Nat) (failed : Bool) (off len : Nat) : State :=
  let x := s.codec e
  let last := len == left
  match s.codecWrite e (r.recordAt r.wr) (x.record failed last off len s.time.toNat) with
  | (s, false) => s.failRecord e x r.sig failed
  | (s, true) =>
    match s.codecWrite e (x.ring.toNat + 0x0C) (bytesOfNat 4 (r.wr + 1)) with
    | (s, false) => s.failRecord e x r.sig failed
    | (s, true) =>
      let x := { x with held := false, lastEnd := off + len, stage := .chunks (left - len) failed }
      let x := if last then x.finishPicture failed else x
      let s := (s.putCodec e x).countRecord e r
      if last then s.complete r.sig (bit failed) else s

/-- The length of the next chunk (R422, R494): all that is left where it fits a quarter of the data area, else a free number
of bytes up to that quarter. -/
def Ring.chunkLen (r : Ring) (left free : Nat) : Nat :=
  if left ≤ r.dataSize / 4 then left else free % (r.dataSize / 4) + 1

/-- The next chunk of engine e's picture (R422, R426): it waits while the ring is full or its bytes meet those of an unconsumed
record. The record of an abandoned picture has no bytes: no record is read for it. Its bytes are free. -/
def State.writeChunk (s : State) (e left : Nat) (failed : Bool) : State :=
  let x := s.codec e
  match s.codecRing e with
  | (s, none) => s.putCodec e (if failed then x.finishPicture true else x.dropPicture)
  | (s, some r) =>
    let len := r.chunkLen left (Config.freeNat s.nfree)
    let off := r.place x.lastEnd len
    match if failed then (s, some false) else s.overlaps e r off len (min r.pending r.nrec) with
    | (s, none) => s.failRecord e x r.sig failed
    | (s, some meets) =>
      if r.nrec ≤ r.pending ∨ meets then s.putCodec e { s.codec e with held := true }
      else
        match s.codecWrite e (r.dataBase + off) (codedBytes s.nfree x.coded off len) with
        | (s, false) => s.failRecord e x r.sig failed
        | (s, true) => { s.performRecord e r left failed off len with nfree := s.nfree + 6 }

/-- CHUNK_WRITE (R422) of encoder e. -/
def execChunkWrite (e : Nat) (s : State) : Out :=
  onDevice s (fun s =>
    let x := s.codec e
    match x.stage with
    | .chunks left failed => if e < 16 ∧ x.en then some (s.writeChunk e left failed) else none
    | _ => none)

/-- CTIME has passed since the first pending record of a ring, which has a vector (R423). -/
def PendingRecords.due (q : PendingRecords) (time : BitVec 64) : Bool :=
  decide (q.vec ≠ 0xFFFF ∧ q.ctime ≠ 0 ∧ q.since.toNat + 1000 * q.ctime ≤ time.toNat)

/-- MSIX_COALESCE_TIMEOUT (R423) of encoder e: CTIME has passed since the first pending record of a ring of which it wrote the
newest, whether or not its session still runs. The ring is not read again (log 112). -/
def execMsixCoalesceTimeout (e : Nat) (s : State) : Out :=
  onDevice s (fun s =>
    if 16 ≤ e then none
    else (s.ringPend.find? (fun q => q.engine == e && q.due s.time)).map (fun q =>
      State.sendMsix { s with ringPend := s.ringPend.erase q } q.vec))

/-! ## Decoding -/

/-- The bitstream of a decoder's next picture has been taken whole (R420, R424, R425): its references are read, and the
picture is kept in its slot. It is damaged where a read or that write fails, and may be where its bitstream breaks its
standard. -/
def State.takePicture (s : State) (e : Nat) (bad : Bool) : State :=
  let x := s.codec e
  let k := x.picnum + x.ready.length
  let broken := Config.freeNat s.nfree % 2 == 1
  let n := s.nfree
  let t := State.readSlots { s with nfree := n + 6 } e false k
  let va := x.slotAddr false k
  let w := t.1.codecWrite e va ((List.range x.slotSize).map (fun i => Config.codecByte n (va + i)))
  w.1.putCodec e { x with ready := x.ready ++ [bad || broken || !t.2 || !w.2], damaged := false, reading := false }

/-- A chunk of a decoder's bitstream is read (R424, R425), and RDIDX advances: a picture whose reads fail is damaged. A
record that cannot be read, or of which a byte that must be zero is not, ends its picture (log 93, 95). -/
def State.readChunk (s : State) (e : Nat) (r : Ring) : State :=
  let ring := (s.codec e).ring.toNat
  let pass := fun (s : State) => (s.codecWrite e (ring + 0x10) (bytesOfNat 4 (r.rd + 1))).1
  match s.codecRead e (r.recordAt r.rd) 32 with
  | (s, none) => pass (s.takePicture e true)
  | (s, some bs) =>
    if ringField bs 0x06 2 ≠ 0 then pass (s.takePicture e true)
    else
      let d := s.codecRead e (r.dataBase + ringField bs 0x08 4) (ringField bs 0x0C 4)
      let s := d.1
      let bad := (s.codec e).damaged || d.2.isNone
      pass (if ringField bs 0x05 1 / 2 % 2 = 1 then s.takePicture e bad
        else s.putCodec e { s.codec e with damaged := bad, reading := true })

/-- DECODE_CHUNK (R424) of decoder d. -/
def execDecodeChunk (d : Nat) (s : State) : Out :=
  onDevice s (fun s =>
    let e := 16 + d
    if 8 ≤ d ∨ !(s.codec e).en then none
    else match s.codecRing e with
      | (s, none) => some s
      | (s, some r) => if r.pending = 0 then none else some (s.readChunk e r))

/-- A decoded sample: free, of 8 bits in the 8-bit sessions (R417, R424). -/
def Codec.sample (x : Codec) (n k : Nat) : Nat :=
  ((Config.codecByte n (2 * k)).toNat + 256 * (Config.codecByte n (2 * k + 1)).toNat) %
    (if x.kind = 0 ∨ x.kind = 4 then 256 else 1024)

/-- The samples of a row of a plane that lie within the stream's cropped width (R424). -/
def Codec.cropped (x : Codec) (e pl : Nat) : Nat :=
  let w := min x.width (Config.croppedWidth e x.picnum)
  if pl = 0 then w else w / 2

/-- The samples of the next row of a plane (R424, R425): in a damaged block row those of the row before it in the most recent
reference, and 512 without one. Beyond the cropped width they are zero. -/
def Codec.nextRow (x : Codec) (e pl n : Nat) (bad : Bool) : List Nat :=
  let q := x.plane pl
  let r := q.taken / (if pl = 0 then 64 else 32)
  let damaged := bad && Config.rowDamaged e x.picnum r
  (List.range (x.rowSamples pl)).map (fun i =>
    if x.cropped e pl ≤ i then 0
    else if damaged then (match q.ref[q.taken]? with
      | some row => row.getD i 0
      | none => 512)
    else x.sample n i)

/-- The plane into which a decoder puts its next row: the first with rows to come and room. -/
def Codec.nextPlane (x : Codec) : Option Nat :=
  [0, 1, 2].find? (fun pl => decide ((x.plane pl).taken < x.planeRows pl) && (x.plane pl).room)

/-- Every row of the picture is out. -/
def Codec.pictureOut (x : Codec) : Bool := [0, 1, 2].all (fun pl => decide (x.planeRows pl ≤ (x.plane pl).taken))

/-- A picture of a decoder has been output (R425): SIG completes. -/
def State.endDecoded (s : State) (e : Nat) (bad : Bool) : State :=
  let x := s.codec e
  let s := s.putCodec e { x.finishPicture false with ready := x.ready.drop 1 }
  match s.codecRing e with
  | (s, some r) => s.complete r.sig (bit bad)
  | (s, none) => s

/-- A decoder puts its next row into plane pl (R424). -/
def State.outputRow (s : State) (e pl : Nat) (bad : Bool) : State :=
  let x := s.codec e
  let q := x.plane pl
  let row : PlaneRow := { samples := x.nextRow e pl s.nfree bad, last := false, short := false, time := s.time }
  let x := x.putPlane pl { q with rows := q.rows ++ [row], taken := q.taken + 1, made := q.made ++ [row.samples] }
  let s := (s.putCodec e x).takeFree
  if x.pictureOut then s.endDecoded e bad else s

/-- DECODER_ROW_OUTPUT (R424) of decoder d. -/
def execDecoderRowOutput (d : Nat) (s : State) : Out :=
  onDevice s (fun s =>
    let e := 16 + d
    let x := s.codec e
    if 8 ≤ d ∨ !x.en then none
    else match x.ready, x.nextPlane with
      | bad :: _, some pl => some (s.outputRow e pl bad)
      | _, _ => none)

end Sys2Proof.Machine
end

