-- ==== Sys2Proof/Machine/Operands.lean ====
section
/-! DEFINITION. Operand forms: immediates and offsets with and without a LIMM (R74, R75), effective
addresses, bit selections, and the local accesses of a scalar instruction (R160). -/

namespace Sys2Proof.Machine

/-- The immediate of an SI cell: IMM9 sign-extended, or the low 32 bits of Concat(IMM28, IMM9) (R74,
R75). -/
def immSi (h : Hdr) (i : BitVec 9) : Word :=
  match h.limm with
  | none => i.signExtend 32
  | some v => BitVec.ofNat 32 (v.toNat * 512 + i.toNat)

/-- The offset of an SM cell: OFF7, or Concat(IMM28, OFF7), sign-extended, times the access size (R74,
R75). -/
def offSm (h : Hdr) (o : BitVec 7) (size : Nat) : Int :=
  match h.limm with
  | none => o.toInt * size
  | some v => sx (v.toNat * 128 + o.toNat) 35 * size

/-- EA of a scalar access (R74). -/
def Core.ea (c : Core) (h : Hdr) (a : BitVec 6) (o : BitVec 7) (size : Nat) : Nat :=
  (((c.reg a.toNat).toNat + offSm h o size) % (2 ^ 20 : Int)).toNat

/-- A branch target: a signed word offset from the main word (R74). -/
def Core.target (c : Core) (h : Hdr) (off : Int) : Pc := c.mainAddr h + BitVec.ofInt 16 (off * 4)

/-- The trip count of LOOPI (R75). -/
def loopCount (h : Hdr) (n : BitVec 10) : Word :=
  match h.limm with
  | none => n.zeroExtend 32
  | some v => BitVec.ofNat 32 (v.toNat % 2 ^ 22 * 1024 + n.toNat)

/-- The LIMM value of an engine cell, where it is written (R75). -/
def limmVal (h : Hdr) : Option Nat := h.limm.map (fun v => v.toNat)

/-- ALIGN of a scalar access (R25, R160 step 1): not aligned to its size, or not mapped. -/
def alignTrap (c : Core) (a z : Nat) : Option Trap :=
  if a % z ≠ 0 then some (c.precise 0x09 0 (BitVec.ofNat 32 a))
  else if !localMapped a then some (c.precise 0x09 1 (BitVec.ofNat 32 a))
  else none

/-- A read that passes the bound sets STATUS.PWOOB (R34, R164). -/
def Core.notePwoob (c : Core) (past : Bool) : Core :=
  if past then { c with csr := { c.csr with pwoob := true } } else c

/-- POISON at the first poisoned word of an access (R160 step 5). -/
def poisonTrap (c : Core) (a n : Nat) : Option Trap :=
  if n = 0 then none
  else (c.firstPoison a n).map (fun w => c.precise 0x06 0 (BitVec.ofNat 32 w))

/-- A qualifier of a read (R29): N, W or C. -/
inductive Qual where
  | n | w | c
deriving DecidableEq, Repr

/-- A W or C load that meets an empty granule (R31, R321): FEWAIT in compute where no engine writes one of
them, else the front end holds. None where every granule is full. -/
def waitFull (c : Core) (q : Qual) (a z : Nat) : Option Eff :=
  if q = .n then none
  else
    match (granules a z).filter (fun g => !setHas c.seenFull g) with
    | [] => none
    | empties =>
      match empties.find? (fun g => (c.writers g).isEmpty) with
      | some g =>
        if c.inCompute then some (.trap (c.precise 0x07 0 (BitVec.ofNat 32 (16 * g))))
        else some (.hold .fullEmpty false)
      | none => some (.hold .fullEmpty (c.inCompute &&
          empties.any (fun g => (c.writers g).all (fun e => c.stuck e))))

/-- A load of class 0x3 (R160, R161): z bytes at a under a qualifier, given to `done` with the core. -/
def loadEff (c : Core) (q : Qual) (a z : Nat) (done : Core → Nat → Core) : Eff :=
  match alignTrap c a z with
  | some t => .trap t
  | none =>
    let user := inWindow a && !c.csr.priv
    if user && c.csr.pwin == 0 then .trap (c.precise 0x05 0 (BitVec.ofNat 32 a))
    else
      match waitFull c q a z with
      | some e => e
      | none =>
        let n := if user then min z (c.csr.pwin.toNat - (a - 0xA0000)) else z
        match poisonTrap c a n with
        | some t => .trap t
        | none =>
          let c1 := (done c (readLE c.mem a n)).notePwoob (n < z)
          .retire (if q = .c then c1.markFull a z false else c1) 1

/-- A store of class 0x3 (R160, R162): the low z bytes of v at a; `needEmpty` for ST.E, to which a granule
outside the scratchpad counts as full (R28). -/
def storeEff (c : Core) (needEmpty : Bool) (a z v : Nat) : Eff :=
  match alignTrap c a z with
  | some t => .trap t
  | none =>
    if inWindow a && !c.csr.priv then .trap (c.precise 0x05 1 (BitVec.ofNat 32 a))
    else
      match (if needEmpty then (if inScratch a then c.firstFull a z else some (a / 16 * 16)) else none) with
      | some g => .trap (c.precise 0x07 1 (BitVec.ofNat 32 g))
      | none =>
        match (if z < 8 then poisonTrap c a z else none) with
        | some t => .trap t
        | none => .retire (c.storeLocal a z v) 1

/-- LDP (R164): z bytes at offset o of the parameter window. An access that straddles offset 4,096 raises no ALIGN: its
lower bytes are read, as in the rule's example at 4,092 (DEDUCED, log 97). -/
def loadParam (c : Core) (o z : Nat) (done : Core → Nat → Core) : Eff :=
  if o % z ≠ 0 ∧ (4096 ≤ o ∨ o + z ≤ 4096) then .trap (c.precise 0x09 0 (BitVec.ofNat 32 o))
  else if !c.csr.priv && c.csr.pwin == 0 then .trap (c.precise 0x05 0 (BitVec.ofNat 32 o))
  else
    let bound := if c.csr.priv then 4096 else min 4096 c.csr.pwin.toNat
    let n := min z (bound - o)
    match poisonTrap c (0xA0000 + o) n with
    | some t => .trap t
    | none => .retire ((done c (readLE c.mem (0xA0000 + o) n)).notePwoob (n < z)) 1

/-- FESET and FECLR (R166): cnt granules from a, of which `done` are changed; a core cycle changes 64 of them. -/
def rangeEff (c : Core) (a cnt done : Nat) (full : Bool) : Eff :=
  let lo := a / 16 + done
  let hi := lo + min 64 (cnt - done)
  let c' := { c with full := if full then setAddRange c.full lo hi else setDelRange c.full lo hi }
  if a % 16 ≠ 0 then .trap (c.precise 0x09 0 (BitVec.ofNat 32 a))
  else if 0x80000 < a + 16 * cnt ∧ cnt ≠ 0 then
    .trap (c.precise 0x09 1 (BitVec.ofNat 32 (max a 0x80000)))
  else if cnt ≤ done + 64 then .retire c' 1
  else .progress c' (done + 64)

end Sys2Proof.Machine
end

