-- ==== Sys2Proof/Machine/Control.lean ====
section
/-! DEFINITION. Class 0x4, branches, jumps and hardware loops (05 R170 to R174), and the predicate cells of
class 0x5 (R159). -/

namespace Sys2Proof.Machine

/-- The link of BRL and JRL: the address of the main word plus 4 (R74, R170, R171). It wraps modulo 2^16 as the PC does, so that
the link of a main word at 0xFFFC is 0 (DESIGN CHOICE, log 127). -/
def Core.link (c : Core) (h : Hdr) : Word := (c.mainAddr h + 4).zeroExtend 32

/-- BR (R170, R174). -/
def execBr (h : Hdr) (o : BitVec 23) (s : State) : Out :=
  scalar (.br h o) h (fun c => .jump (c.popLevels (c.target h o.toInt)) (c.target h o.toInt) 3) s

/-- BRL (R170). -/
def execBrl (h : Hdr) (o : BitVec 23) (s : State) : Out :=
  scalar (.brl h o) h (fun c => .jump (c.setReg 1 (c.link h)) (c.target h o.toInt) 3) s

/-- The target of JR and JRL (R171). -/
def Core.jumpTarget (c : Core) (a : BitVec 6) (o : BitVec 15) : Pc :=
  BitVec.ofInt 16 ((c.reg a.toNat).toNat + o.toInt * 4)

/-- JR (R171, R174). -/
def execJr (h : Hdr) (a : BitVec 6) (o : BitVec 15) (s : State) : Out :=
  scalar (.jr h a o) h (fun c =>
    if (c.jumpTarget a o).toNat % 4 ≠ 0 then .trap (c.precise 0x09 0 ((c.jumpTarget a o).zeroExtend 32))
    else .jump (c.popLevels (c.jumpTarget a o)) (c.jumpTarget a o) 3) s

/-- JRL (R171). -/
def execJrl (h : Hdr) (a : BitVec 6) (o : BitVec 15) (s : State) : Out :=
  scalar (.jrl h a o) h (fun c =>
    if (c.jumpTarget a o).toNat % 4 ≠ 0 then .trap (c.precise 0x09 0 ((c.jumpTarget a o).zeroExtend 32))
    else .jump (c.setReg 1 (c.link h)) (c.jumpTarget a o) 3) s

/-- LOOP and LOOPI with count n and END e (R172). A depth of 5 to 7, which a supervisor may store, traps as 4 does, and one
that opens a level costs 1 core cycle (DESIGN CHOICE, log 98). -/
def openLoop (i : Instr) (h : Hdr) (n : Word) (e : Nat) (c : Core) : Eff :=
  if 4 ≤ c.csr.lpdep.toNat then .trap (c.precise 0x01 5 (mainWord i))
  else
    let beg := c.mainAddr h + 4
    let fin := beg + BitVec.ofNat 16 (4 * e)
    if n = 0 then .jump c (fin + 4) 3
    else
      let k := c.csr.lpdep.toNat
      .jump { c with csr := { c.csr with
          lpbeg := c.csr.lpbeg.setIfInBounds k (beg.zeroExtend 32)
          lpfin := c.csr.lpfin.setIfInBounds k (fin.zeroExtend 32)
          lpcnt := c.csr.lpcnt.setIfInBounds k n
          lpdep := c.csr.lpdep + 1 } } beg 1

/-- LOOP (R172). -/
def execLoop (h : Hdr) (a : BitVec 6) (e : BitVec 15) (s : State) : Out :=
  scalar (.loop h a e) h (fun c => openLoop (.loop h a e) h (c.reg a.toNat) e.toNat c) s

/-- LOOPI (R172). -/
def execLoopi (h : Hdr) (n : BitVec 10) (e : BitVec 11) (s : State) : Out :=
  scalar (.loopi h n e) h (fun c => openLoop (.loopi h n e) h (loopCount h n) e.toNat c) s

/-- PAND (R159). -/
def execPand (h : Hdr) (d a b : BitVec 3) (s : State) : Out :=
  scalar (.pand h d a b) h
    (fun c => .retire (c.setPred d.toNat (c.pred a.toNat && c.pred b.toNat)) 1) s

/-- POR (R159). -/
def execPor (h : Hdr) (d a b : BitVec 3) (s : State) : Out :=
  scalar (.por h d a b) h
    (fun c => .retire (c.setPred d.toNat (c.pred a.toNat || c.pred b.toNat)) 1) s

/-- PXOR (R159). -/
def execPxor (h : Hdr) (d a b : BitVec 3) (s : State) : Out :=
  scalar (.pxor h d a b) h
    (fun c => .retire (c.setPred d.toNat (c.pred a.toNat != c.pred b.toNat)) 1) s

/-- PNOT (R159). -/
def execPnot (h : Hdr) (d a : BitVec 3) (s : State) : Out :=
  scalar (.pnot h d a) h (fun c => .retire (c.setPred d.toNat (!c.pred a.toNat)) 1) s

/-- PMOV (R159). -/
def execPmov (h : Hdr) (d a : BitVec 3) (s : State) : Out :=
  scalar (.pmov h d a) h (fun c => .retire (c.setPred d.toNat (c.pred a.toNat)) 1) s

end Sys2Proof.Machine
end

