-- ==== Sys2Proof/Machine/System.lean ====
section
/-! DEFINITION. The system cells of class 0x5 (06 R179 to R193, R199): CSR access, NOP, SYNC, ITER, ERET, SVC,
BKPT, the queue registers, RNG and LEND. -/

namespace Sys2Proof.Machine

/-! ## CSR access -/

/-- The context of a core's task permits debug (R46, R381). -/
def State.debugPermitted (s : State) (c : Core) : Bool :=
  match c.task with
  | none => false
  | some t => bits (s.dist.contexts[t.ctx]?.getD 0).toNat 2 2 == 1

/-- The privilege traps of an access of one CSR or of a pair (R43, R46, R189): of a pair the low CSR's first, with the index of the
refused one (DESIGN CHOICE, log 114). -/
def csrPre (s : State) (wr : Bool) (w : BitVec 1) (i : BitVec 12) (c : Core) : Option Trap :=
  match csrPriv (s.debugPermitted c) c wr i.toNat with
  | some t => some t
  | none => if w = 0 then none else csrPriv (s.debugPermitted c) c wr (i.toNat + 1)

/-- CSRR (R188): with W = 1 the pair, read at one moment (R46). -/
def execCsrr (h : Hdr) (w : BitVec 1) (d : BitVec 6) (i : BitVec 12) (s : State) : Out :=
  issue (.csrr h w d i) h (csrPre s false w i) (fun c =>
    .retire (c.setGroup d.toNat w.toNat ((csrRead s.det s.time c i.toNat).toNat +
      2 ^ 32 * (csrRead s.det s.time c (i.toNat + 1)).toNat)) 1) s

/-- What refuses or holds a permitted write of one CSR (R27, R189, R190). -/
def csrObstacle (j : Instr) (op : CsrOp) (c : Core) (i : Nat) (v : Word) : Option Eff :=
  if !csrWritable i then some (.trap (c.precise 0x01 5 (BitVec.ofNat 32 i)))
  else if i = 0x050 ∧ accownRefused c ((op.apply (c.csr.accown.zeroExtend 32) v).setWidth 8) then
    some (.trap (c.precise 0x01 7 (mainWord j)))
  else match csrHolds c i with
    | some e => some (.hold .counter (c.stuck e))
    | none => none

/-- CSRW, CSRS and CSRC (R188): nothing is written where one CSR of a pair refuses or holds; the low one is asked first, and a
refusal names the index of the CSR that refuses (DESIGN CHOICE, log 114). -/
def csrWriteEff (j : Instr) (op : CsrOp) (w : BitVec 1) (d : BitVec 6) (i : BitVec 12) (c : Core) : Eff :=
  let lo := c.reg d.toNat
  match csrObstacle j op c i.toNat lo with
  | some e => e
  | none =>
    if w = 0 then .retire (csrApply c op i.toNat lo) 1
    else
      let hi := c.reg (d.toNat + 1)
      match csrObstacle j op c (i.toNat + 1) hi with
      | some e => e
      | none => .retire (csrApply (csrApply c op i.toNat lo) op (i.toNat + 1) hi) 1

/-- CSRW (R188). -/
def execCsrw (h : Hdr) (w : BitVec 1) (d : BitVec 6) (i : BitVec 12) (s : State) : Out :=
  issue (.csrw h w d i) h (csrPre s true w i) (csrWriteEff (.csrw h w d i) .write w d i) s

/-- CSRS (R188). -/
def execCsrs (h : Hdr) (w : BitVec 1) (d : BitVec 6) (i : BitVec 12) (s : State) : Out :=
  issue (.csrs h w d i) h (csrPre s true w i) (csrWriteEff (.csrs h w d i) .set w d i) s

/-- CSRC (R188). -/
def execCsrc (h : Hdr) (w : BitVec 1) (d : BitVec 6) (i : BitVec 12) (s : State) : Out :=
  issue (.csrc h w d i) h (csrPre s true w i) (csrWriteEff (.csrc h w d i) .clear w d i) s

/-! ## NOP, ITER, SYNC -/

/-- NOP (R192). -/
def execNop (h : Hdr) (s : State) : Out := scalar (.nop h) h (fun c => .retire c 1) s

/-- ITER (R181): legal in compute only (R54). -/
def execIter (h : Hdr) (s : State) : Out :=
  issue (.iter h) h (computeOnly (.iter h)) (fun c => .retire { c with iterMark := true } 1) s

/-- V, M and L have completed everything issued (R179). -/
def Core.drained (c : Core) : Bool :=
  [Eng.V, .M, .L].all (fun e => (c.eng e).done == (c.eng e).iss)

/-- A core whose compute SYNC is drained becomes READY: STRK is cleared where it was on time (R369), and both
planes become EMPTY (R243). Its READY takes 6 core cycles to the Iris (R366). The front end holds SYNC until its view advances (R56). -/
def Core.becomeReady (c : Core) : Core :=
  { c with
    pst := .ready
    sigLeft := 6
    csr := if c.pst = .compute then { c.csr with strk := 0 } else c.csr
    matrix := { c.matrix with active := .reset, shadow := .reset } }

/-- A SYNC that a core has reached holds it until the boundary (R179, R180): in compute once V, M and L are
drained the core is READY, in an exchange block it is XREADY. -/
def syncEff (c : Core) : Eff :=
  match c.pst with
  | .compute | .straggler =>
    if c.drained then .retire c.becomeReady 0
    else .hold .sync ([Eng.V, .M, .L].any (fun e => c.stuck e))
  | .exchange => .retire { c with pst := .xready, sigLeft := 6 } 0
  | _ => .hold .sync false

/-- The core after SYNC has changed its phase state: the front end still holds SYNC, which retires when the
view advances (R56). -/
def holdSync (i : Instr) (ws : List Wait) (s : State) : Eff → State
  | .retire c _ => { s with core := { c with held := some { instr := i, why := .sync, waits := ws } } }
  | .hold why dead => holdFor i why ws dead s
  | .trap t => raise t s
  | _ => s

/-- SYNC (R179, R180). -/
def execSync (h : Hdr) (s : State) : Out :=
  let c := s.core
  if !c.guard h then .next { s with core := c.retireFrom h 1 c }
  else
    let ws := scalarWaits c (.sync h) h
    if ws.all (waitDone c) then .next (holdSync (.sync h) ws s (syncEff c))
    else .next (holdFor (.sync h) .tokens ws (ws.any (fun w => !waitDone c w && c.stuck w.eng)) s)

/-! ## Traps and returns -/

/-- A resumed task's first return to user mode (R369, R409): STRK and the sticky bits that no CSR write sets take their
saved values (log 92). -/
def Core.restoreSaved (c : Core) : Core :=
  if c.csr.priv then c
  else
    let back := fun (c : Core) (w : Nat × Word) =>
      let m : Word := BitVec.ofNat 32 (csrW1cMask w.1)
      let r := c.csr
      let mix := fun (v : Word) => (v &&& ~~~m) ||| (w.2 &&& m)
      match w.1 with
      | 0x000 => { c with csr := { r with pwoob := wbit w.2 2, strk := w.2.extractLsb' 8 8 } }
      | 0x051 => { c with csr := { r with mstat := mix r.mstat } }
      | 0x052 => { c with csr := { r with vstat := mix r.vstat } }
      | 0x053 => { c with csr := { r with fpctl := mix r.fpctl } }
      | 0x0C2 => { c with csr := { r with tracectl := mix r.tracectl } }
      | _ => c
    { c.saved.foldl back c with saved := [] }

/-- ERET (R199): legal in supervisor mode only (R43). -/
def execEret (h : Hdr) (s : State) : Out :=
  issue (.eret h) h
    (fun c => if c.csr.priv then none else some (c.precise 0x02 1 (mainWord (.eret h))))
    (fun c =>
      let c1 := (((((c.leaveTrap).release .V).release .M).release .L).release .E).restoreSaved
      .jump c1 c1.pc 3) s

/-- SVC (R193). -/
def execSvc (h : Hdr) (k : BitVec 11) (s : State) : Out :=
  scalar (.svc h k) h (fun _ => .retireTrap 0x10 (k.zeroExtend 32)) s

/-- The step of DBGCTL.STM that a halt leaves: its STEP trap stays due behind the halt (R197), also where the halt
ends a step command over the same instruction (R451). -/
def Core.stepKept (c : Core) : Option Stepping :=
  match c.dbg.stepping with
  | none => none
  | some st =>
    if !st.host then some st
    else
      let stm := bits c.csr.dbgctl.toNat 2 1
      if stm = 0 ∨ st.retired = false then none else some { st with deep := stm == 2, host := false }

/-- A core becomes HALTED (R447): HCAUSE is recorded, and a step under way ends. -/
def Core.halt (c : Core) (hcause : Nat) : Core :=
  { c with halted := true
           csr := { c.csr with dbgstat := (c.csr.dbgstat &&& 0xFFFFFFF8) ||| BitVec.ofNat 32 hcause }
           pend := { c.pend with halt := none }
           dbg := { c.dbg with stepping := c.stepKept, asked := none } }

/-- BKPT (R193): under DBGCTL.BKH it retires and halts the core. -/
def execBkpt (h : Hdr) (k : BitVec 11) (s : State) : Out :=
  if s.core.guard h && wbit s.core.csr.dbgctl 0 then
    let ws := scalarWaits s.core (.bkpt h k) h
    if ws.all (waitDone s.core) then
      .next { s with core := (s.core.retireFrom h 1 s.core).halt 3 }
    else .next (holdFor (.bkpt h k) .tokens ws
      (ws.any (fun w => !waitDone s.core w && s.core.stuck w.eng)) s)
  else scalar (.bkpt h k) h (fun _ => .retireTrap 0x11 (k.zeroExtend 32)) s

/-! ## Queue registers, RNG, LEND -/

/-- QPOP (R183). -/
def execQpop (h : Hdr) (d : BitVec 6) (n : BitVec 2) (s : State) : Out :=
  scalar (.qpop h d n) h (fun c =>
    match c.queue n.toNat with
    | v :: t => .retire ((c.setQueue n.toNat t).setReg d.toNat v) 1
    | [] =>
      if c.queueTargeted n.toNat then .hold .qpop false
      else .trap (c.precise 0x08 n.toNat (n.zeroExtend 32))) s

/-- QSTAT (R184). -/
def execQstat (h : Hdr) (d : BitVec 6) (n : BitVec 2) (s : State) : Out :=
  scalar (.qstat h d n) h (fun c =>
    .retire (c.setReg d.toNat (BitVec.ofNat 32
      ((c.queue n.toNat).length + 16 * bit (c.queueTargeted n.toNat)))) 1) s

/-- RNG (R191): the pair a; s0 stands for counter 0. -/
def execRng (h : Hdr) (d : BitVec 6) (a : BitVec 5) (s : State) : Out :=
  scalar (.rng h d a) h (fun c =>
    let key := c.csr.seedlo.toNat + 2 ^ 32 * c.csr.seedhi.toNat
    let ctr := if a = 0 then 0 else c.group (2 * a.toNat) 1
    .retire (c.setReg d.toNat (BitVec.ofNat 32 (hash key ctr))) 1) s

/-- Pass accumulator bank n to an engine (R186); own is its owner code, lose the other engine. -/
def lendEff (i : Instr) (own : Bool) (lose : Eng) (n : Nat) (c : Core) : Eff :=
  if (c.csr.accown.toNat / 2 ^ n % 2 == 1) == own then .retire c 1
  else if c.targetsBank lose n then .trap (c.precise 0x01 7 (mainWord i))
  else .retire { c with csr := { c.csr with accown := c.csr.accown ^^^ BitVec.ofNat 8 (2 ^ n) } } 1

/-- LEND.M (R186). -/
def execLendM (h : Hdr) (n : BitVec 3) (s : State) : Out :=
  scalar (.lendM h n) h (fun c => lendEff (.lendM h n) false .V n.toNat c) s

/-- LEND.V (R186). -/
def execLendV (h : Hdr) (n : BitVec 3) (s : State) : Out :=
  scalar (.lendV h n) h (fun c => lendEff (.lendV h n) true .M n.toNat c) s

end Sys2Proof.Machine
end

