-- ==== Sys2Proof/Machine/Fetch.lean ====
section
/-! DEFINITION. Fetching an instruction's words (R63, R110, R111, R345), the two ways a fetch raises a trap,
and what the front end does at an instruction boundary before it issues (R197, R198). -/

namespace Sys2Proof.Machine

/-- What the front end finds at its PC. -/
inductive Fetched where
  | instr (i : Instr)
  | illegal (r : Reject)
  | fault (word : Nat) (cause : FetchFault)
  | wait
deriving DecidableEq, Repr

/-- An XOVL of the core has been issued and its header has not arrived (R111 step 1). -/
def Core.awaitsHeader (c : Core) : Bool :=
  c.engE.queue.any (fun e =>
    match e.instr with
    | .xovl .. => e.stage != .finished && !c.xfers.any (fun x => x.entry == e && (x.stage != 0 || x.failed))
    | _ => false)

/-- A word of instruction memory that is still being loaded holds its fetch (R111 step 4). -/
def Core.pageLoading (c : Core) (a : Pc) : Bool :=
  match c.overlay with
  | none => false
  | some o => o.mask.toNat / 2 ^ (a.toNat / 4096) % 2 == 1

/-- A bit of a page mask at an address. -/
def pageBit (m : BitVec 16) (a : Pc) : Bool := m.toNat / 2 ^ (a.toNat / 4096) % 2 == 1

/-- Why the word at an address cannot be read, if so (R63, R110, R345). -/
def Core.fetchFault (c : Core) (a : Pc) : Option FetchFault :=
  if !pageBit c.pageValid a then some .invalid
  else if !pageBit c.pageExec a then some .notExecutable
  else if setHas c.imemPoison (a.toNat / 8) then some .poisoned
  else none

/-- The word of instruction memory at an address. -/
def Core.fetchWord (c : Core) (a : Pc) : Nat := readLE c.imem a.toNat 4

/-- How many words the instruction at the PC needs, read one by one (R63): the words in order, or the
first that cannot be read. -/
def Core.fetchWords (c : Core) (ws : List Nat) : Nat → Except (Nat × Option FetchFault) (List Nat)
  | 0 => .ok ws
  | k + 1 =>
    if ws.length < wordsNeeded ws ∨ ws = [] then
      let a := c.pc + BitVec.ofNat 16 (4 * ws.length)
      if c.pageLoading a then .error (ws.length, none)
      else match c.fetchFault a with
        | some f => .error (ws.length, some f)
        | none => c.fetchWords (ws ++ [c.fetchWord a]) k
    else .ok ws

/-- The instruction at the PC (R62, R63, R67). -/
def Core.fetch (c : Core) : Fetched :=
  if c.awaitsHeader then .wait
  else match c.fetchWords [] 3 with
    | .error (_, none) => .wait
    | .error (k, some f) => .fault k f
    | .ok ws =>
      match decodeList ws with
      | .ok i => .instr i
      | .error r => .illegal r

/-- UNALLOCATED_WORD (R66, R68): ILLEGAL at the instruction, whatever its guard (R67). -/
def execUnallocatedWord (sub : BitVec 3) (etval : BitVec 32) (s : State) : Out :=
  .next (raise (s.core.precise 0x01 sub.toNat etval) s)

/-- INSTRUCTION_FETCH_FAULT (R63, R195, R345). -/
def execInstructionFetchFault (word : Nat) (cause : FetchFault) (s : State) : Out :=
  let a := (s.core.pc + BitVec.ofNat 16 (4 * word)).toNat
  let ifetch := fun sub => { s.core.precise 0x04 sub (BitVec.ofNat 32 (a / 4096 * 4096)) with word := word }
  match cause with
  | .invalid => .next (raise (ifetch 0) s)
  | .notExecutable => .next (raise (ifetch 1) s)
  | .poisoned => .next (raise (s.core.precise 0x06 0 (BitVec.ofNat 32 (a / 8 * 8))) s)

/-! ## Instruction boundaries -/

/-- The front end of a core may issue: its phase state lets it (R55), it is not HALTED (R447), and no STEP.D
waits for its tokens (R451). -/
def Core.issues (c : Core) : Bool :=
  !c.halted && (c.pst == .compute || c.pst == .exchange || c.pst == .straggler) &&
  !(match c.dbg.stepping with
    | some st => st.retired
    | none => false)

/-- The trap of a report (R195): imprecise, with EPC at the next instruction. -/
def reportTrap (c : Core) (e : Eng) (r : Report) : Trap :=
  { code := r.code, word := 0, eng := engCode e, imp := true, sub := r.sub, epc := c.pc, etval := r.etval }

/-- The first engine with a report still to be taken, in the order V, M, L, E (R197). -/
def Core.pendingReport (c : Core) : Option (Eng × Report) :=
  [Eng.V, .M, .L, .E].findSome? (fun e => (c.eng e).report.map (fun r => (e, r)))

/-- Take a pending report at an instruction boundary (R197, R198). -/
def takeReport (s : State) (e : Eng) (r : Report) : State :=
  let c := s.core
  let c1 := c.setEng e { c.eng e with report := none }
  { s with core := c1.enterTrap s.det (reportTrap c e r) }

/-- An asynchronous trap of the current core (R195). -/
def asyncTrap (c : Core) (code sub : Nat) (etval : Word) : Trap :=
  { code := code, word := 0, eng := 0, imp := false, sub := sub, epc := c.pc, etval := etval }

/-- The save area of a core's logical core (R388). -/
def State.saveArea (s : State) (c : Core) : Nat :=
  s.ctxWord c.ctx 2 + 2 ^ 32 * s.ctxWord c.ctx 3 + c.csr.coreL.toNat * 2 ^ 20

/-- The debug unit writes UCNT and XORD of the current core into an area (R453). -/
def State.saveCounters (s : State) (area : Nat) : State :=
  let va := (area + 0xF0000) % 2 ^ 52
  let c := s.core
  (s.writeFor (unitOf va) c.ctx c.csr.asid.toNat (some c.phys) va (bytesOfNat 8 c.dbg.ucnt.toNat ++ bytesOfNat 8 c.dbg.xord.toNat)).1

/-- The slots of a context's checkpoints (R463). -/
def DebugCtx.slots (d : DebugCtx) : Nat := bits d.ckctl.toNat 19 16 + 1

/-- The slot of checkpoint k (R452). -/
def DebugCtx.slotOf (d : DebugCtx) (k : Nat) : Nat := k % d.slots

/-- The debug unit notes that the current core enters the interval that begins with the last checkpoint, with
the UCNT that it saves (R452, R454). -/
def State.noteInterval (s : State) : State :=
  let c := s.core
  let d := s.debugCtx c.ctx
  let k := d.ckidx.toNat - 1
  let l := c.csr.coreL.toNat
  s.putDebugCtx c.ctx { d with ucntAt := tabPut d.ucntAt (2048 * d.slotOf k + l) c.dbg.ucnt.toNat
                               runs := tabPut d.runs l (k + 1) }

/-- PREEMPT (R58, R407, R453): the member ends with this exchange, but for a swap of slots (R395). -/
def takePreempt (s : State) : State :=
  let c := s.core
  let c' : Core := { c with
    pend := { c.pend with preempt := false, swap := false }
    task := c.task.map (fun t => { t with preempting := !c.pend.swap }) }
  State.saveCounters { s with core := c'.enterTrap s.det (asyncTrap c 0x20 0 0) } (s.saveArea c)

/-- STEP (R451, R452): with SUB 2 the debug unit saves the counters into the checkpoint area (R453). R195 gives STEP the ETVAL 0
and R452 the area's bits [51:20] where SUB is 2: R452 is followed there (DESIGN CHOICE, log 129). -/
def takeStep (s : State) (sub : Nat) (etval : Word) : State :=
  let c := s.core
  let c' : Core := { c with pend := { c.pend with step := c.pend.step.drop 1 } }
  let s' : State := { s with core := c'.enterTrap s.det (asyncTrap c 0x12 sub etval) }
  if sub = 2 then (s'.saveCounters (etval.toNat * 2 ^ 20)).noteInterval else s'

/-- PREEMPT, STRAGGLE, EXTIME and STEP, in that order (R197). -/
def takeAsync (s : State) : Option State :=
  let c := s.core
  let p := c.pend
  let enter := fun (p' : Pending) (t : Trap) =>
    some { s with core := ({ c with pend := p' } : Core).enterTrap s.det t }
  if p.preempt then some (takePreempt s)
  else if p.straggle then
    enter { p with straggle := false } (asyncTrap c 0x21 0 (c.csr.strk.zeroExtend 32))
  else match p.extime with
    | some k => enter { p with extime := none } (asyncTrap c 0x22 k 0)
    | none =>
      match p.step with
      | (k, v) :: _ => some (takeStep s k v)
      | [] => none

/-- The armed stop is reached by the current core (R454): its logical core runs the interval, and its UCNT has
come to the count behind the checkpoint's; a count of 0 waits for the first user instruction. Within a range change no
boundary stands (R166). -/
def State.stopReached (s : State) : Bool :=
  let c := s.core
  let d := s.debugCtx s.debugUnit.ctx
  let l := bits s.debugUnit.core.toNat 10 0
  let k := s.debugUnit.iv.toNat
  s.debugUnit.armed && !c.midRange && (c.task.map (·.ctx)) == some s.debugUnit.ctx && c.csr.coreL.toNat == l &&
  tabGet d.runs l == k + 1 &&
  c.dbg.ucnt.toNat == tabGet d.ucntAt (2048 * d.slotOf k + l) + s.debugUnit.cnt.toNat &&
  (s.debugUnit.cnt != 0 || c.userCode)

/-- The stop fires: it is disarmed, and the current core halts (R454). A HALT command at the same boundary gives the one
halt its cause (R463). -/
def State.fireStop (s : State) : State :=
  { s with debugUnit := { s.debugUnit with armed := false }, core := s.core.halt (s.core.pend.halt.getD 2) }

/-- What happens at the boundary before the instruction there (R197): a halt in any mode; reports and
asynchronous traps in user mode only (R198). None where the instruction issues. None either between the core cycles of a range
change (R166), which R195 does not name among the instructions that are held (DESIGN CHOICE, log 128). -/
def atBoundary (s : State) : Option State :=
  if s.core.midRange then none
  else if s.stopReached then some s.fireStop
  else match s.core.pend.halt with
  | some k => some { s with core := s.core.halt k }
  | none =>
    if s.core.csr.priv then none
    else match s.core.pendingReport with
      | some (e, r) => some (takeReport s e r)
      | none => takeAsync s

/-- Self-hosted stepping (R449, R451): where DBGCTL.STM asks for it, the next user instruction is a step. -/
def Core.startStep (c : Core) : Core :=
  let stm := bits c.csr.dbgctl.toNat 2 1
  if !c.userCode ∨ (stm = 0 ∧ c.dbg.stepping = none) then c
  else match c.dbg.stepping with
    | some { host := true, .. } => c
    | _ =>
      let st : Stepping := { deep := stm == 2, host := false, retired := false, tokens := [] }
      { c with dbg := { c.dbg with stepping := if stm = 0 then none else some st } }

end Sys2Proof.Machine
end

