-- ==== Sys2Proof/Machine/Debug.lean ====
section
/-! DEFINITION. The debug and trace unit (16 R447 to R463): commands, the end of a step, stops, accesses to a
HALTED core's window, and the trace buffer. -/

namespace Sys2Proof.Machine

/-! ## Commands -/

/-- The context of a core permits debug (R381, R463). -/
def State.debugCore (s : State) (c : Core) : Bool := c.task.isSome && s.debugPermitted c

/-- The cores that a DCMD names (R463): one logical core, or all of DSCTX.CTX; cores without a task and
contexts without DBG are left out. -/
def State.dcmdCores (s : State) (v : Word) : List Nat :=
  ((s.cores.filter (fun c => s.debugCore c &&
    (if wbit v 24 then (c.task.map (·.ctx)) == some s.debugUnit.ctx else c.csr.coreL.toNat == bits v.toNat 18 8)))).map (·.phys)

/-- A HALT command (R447): the core halts at its next instruction boundary. -/
def Core.askHalt (c : Core) : Core := if c.halted then c else { c with pend := { c.pend with halt := some 1 } }

/-- A RESUME command (R447, R463): a HALTED core goes on; a STEP.D whose wait ends is given up without a
further halt. -/
def Core.resume (c : Core) : Core :=
  if c.halted then { c with halted := false }
  else match c.dbg.stepping with
    | some { host := true, retired := true, .. } => { c with dbg := { c.dbg with stepping := none } }
    | _ => c

/-- A step command's step before its instruction has retired (R451). -/
def Stepping.asked (deep : Bool) : Stepping := { deep := deep, host := true, retired := false, tokens := [] }

/-- A STEP or STEP.D command (R451): the core goes on for one user instruction. Where the STEP trap of a self-hosted step
is still due (R197), the trap comes first. -/
def Core.askStep (c : Core) (deep : Bool) : Core :=
  match c.dbg.stepping with
  | some { host := false, retired := true, .. } => { c with halted := false, dbg := { c.dbg with asked := some deep } }
  | _ => { c with halted := false, dbg := { c.dbg with stepping := some (.asked deep) } }

/-- DCMD_HALT (R447, R463). -/
def execDcmdHalt (v : BitVec 32) (s : State) : Out := s.request 1 (fun s => s.eachCore (s.dcmdCores v) Core.askHalt)

/-- DCMD_RESUME (R447, R463). -/
def execDcmdResume (v : BitVec 32) (s : State) : Out := s.request 1 (fun s => s.eachCore (s.dcmdCores v) Core.resume)

/-- DCMD_STEP (R451, R463). -/
def execDcmdStep (v : BitVec 32) (s : State) : Out := s.request 1 (fun s => s.eachCore (s.dcmdCores v) (·.askStep false))

/-- DCMD_STEP_D (R451, R463). -/
def execDcmdStepD (v : BitVec 32) (s : State) : Out := s.request 1 (fun s => s.eachCore (s.dcmdCores v) (·.askStep true))

/-- A write to DCMD (R463): other codes are discarded. -/
def State.writeDcmd (s : State) (v : Word) : State :=
  let f : Core → Core := match bits v.toNat 2 0 with
    | 1 => Core.askHalt
    | 2 => Core.resume
    | 3 => (·.askStep false)
    | 4 => (·.askStep true)
    | _ => id
  s.eachCore (s.dcmdCores v) f

/-! ## Steps and stops -/

/-- The wait of a step is over (R451): its instruction has retired, the core stands at an instruction boundary,
and under STEP.D its tokens are done, or a report is due. -/
def Core.stepOver (c : Core) (st : Stepping) : Bool :=
  st.retired && !c.halted && (c.pst == .compute || c.pst == .exchange || c.pst == .straggler) &&
  (!st.deep || st.tokens.all (waitDone c) || c.pendingReport.isSome)

/-- The stop of a step (R451): a halt under a command, else STEP is due, and a step command that waits for it begins. A
HALT command at the same boundary gives the one halt its cause (R463). -/
def Core.endStep (c : Core) (st : Stepping) : Core :=
  if st.host then c.halt (c.pend.halt.getD (if st.deep then 5 else 4))
  else { c with pend := { c.pend with step := c.pend.step ++ [(bit st.deep, 0)] }
                dbg := { c.dbg with stepping := c.dbg.asked.map Stepping.asked, asked := none } }

/-- A STEP.D has retired its instruction and waits for the tokens at the boundary behind it (R451). -/
def Core.stepWaits (c : Core) : Bool :=
  !c.halted && (c.pst == .compute || c.pst == .exchange || c.pst == .straggler) &&
  (match c.dbg.stepping with
   | some st => st.retired && !c.stepOver st
   | none => false)

/-- The current core halts at the boundary at which its STEP.D waits (R447): where an armed stop is reached, or on a HALT
command. A self-hosted step goes on to wait behind the halt (DEDUCED, log 126). -/
def State.haltInWait (s : State) : Option State :=
  if !s.core.stepWaits then none
  else if s.stopReached then some s.fireStop
  else s.core.pend.halt.map (fun k => { s with core := s.core.halt k })

/-- STEP_STOP (R451) of core p. -/
def execStepStop (p : Nat) (s : State) : Out :=
  onCore s p (fun c s =>
    match c.dbg.stepping with
    | some st => if c.stepOver st then some (s.setCore p (c.endStep st)) else none
    | none => none)

/-- A write to DSCTX (R463): the context, and a stop armed or not. -/
def State.writeDsctx (s : State) (v : Word) : State :=
  { s with debugUnit := { s.debugUnit with ctx := bits v.toNat 5 0, armed := wbit v 16 } }

/-- STOP_ARM (R454, R463). -/
def execStopArm (v : BitVec 32) (s : State) : Out := s.request 1 (fun s => s.writeDsctx v)

/-- STOP_FIRES (R454) at core p, before its next instruction. -/
def execStopFires (p : Nat) (s : State) : Out :=
  onCore s p (fun c s =>
    if (c.issues || c.stepWaits) && (s.select p).stopReached then some (s.select p).fireStop else none)

/-! ## The window of a HALTED core -/

/-- DEBUG_WINDOW_ACCESS (R448): with supervisor permissions, of a HALTED core. A read's
bytes and whether poison is among them are its answer (R345). -/
def execDebugWindowAccess (p off n : Nat) (data : Option Nat) (s : State) : Out :=
  onCore s p (fun c s =>
    if !c.halted ∨ !windowAllows data.isSome true off n then none
    else match data with
      | some v => some (s.setCore p (c.debugWrite off (bytesOfNat n v)))
      | none => some (s.emit (.completion 0 (c.windowBytes s.det s.time off n)
          ((List.range n).any (fun k => c.windowBad (off + k))))))

/-! ## The trace buffer -/

/-- The place of the next record in a core's trace buffer (R458). -/
def Core.traceVa (c : Core) : Nat :=
  let i := bits c.csr.tracectl.toNat 31 16
  (c.csr.tracebase.toNat * 2 ^ 20 + 32 * (i % (128 * 2 ^ bits c.csr.tracectl.toNat 11 8))) % 2 ^ 52

/-- A record has been performed (R458, R460): WIDX advances, and a buffer without WRAP is full at its end. -/
def Core.tracePerformed (c : Core) : Core :=
  let ctl := c.csr.tracectl.toNat
  let i := (bits ctl 31 16 + 1) % 2 ^ 16
  let full := bits ctl 5 5 == 0 && i % (128 * 2 ^ bits ctl 11 8) == 0
  let ctl' := bits ctl 15 0 + 2 ^ 16 * i
  let v := if full && bits ctl 6 6 == 0 then ctl' + 64 else ctl'
  { c with csr := { c.csr with tracectl := BitVec.ofNat 32 v } }

/-- A failed trace write suspends the trace with its kind (R450, R460). -/
def Core.traceFailed (c : Core) (kind : Nat) : Core :=
  { c with csr := { c.csr with
      tracectl := c.csr.tracectl ||| 2
      dbgstat := (c.csr.dbgstat &&& 0xFFFF00FF) ||| BitVec.ofNat 32 (256 * kind) } }

/-- The oldest record leaves the FIFO for memory (R460). -/
def State.writeTrace (s : State) (p : Nat) (r : BitVec 256) : State :=
  let c := s.coreAt p
  let va := c.traceVa
  let pop := fun (c : Core) => { c with dbg := { c.dbg with fifo := c.dbg.fifo.drop 1 } }
  match s.writeFor (unitOf va) c.ctx c.csr.asid.toNat (some p) va (bytesOfNat 32 r.toNat) with
  | (s, .ok _) => s.onCoreAt p (fun c => (pop c.tracePerformed).flushLost)
  | (s, .error (_, k)) => s.onCoreAt p (fun c => pop (c.traceFailed k))

/-- TRACE_RECORD_WRITE (R460) of core p. -/
def execTraceRecordWrite (p : Nat) (s : State) : Out :=
  onCore s p (fun c s =>
    match c.dbg.fifo with
    | r :: _ =>
      if bits c.csr.tracectl.toNat 1 1 = 0 ∧ bits c.csr.tracectl.toNat 6 6 = 0 then some (s.writeTrace p r) else none
    | [] => none)

end Sys2Proof.Machine
end

