-- ==== Sys2Proof/Machine/Exchange.lean ====
section
/-! DEFINITION. Dispatch of the exchange instructions (09 R270, R275, R280 to R283 and the cells' own rules):
their checks and what their entries capture. -/

namespace Sys2Proof.Machine

/-! ## The checks of R283 -/

/-- XFAULT at the instruction (R283). -/
def xfault (c : Core) (sub v : Nat) : Trap := c.precise 0x0B sub (BitVec.ofNat 32 v)

/-- ILLEGAL at the instruction, with the main word (R68). -/
def illegal (i : Instr) (c : Core) (sub : Nat) : Trap := c.precise 0x01 sub (mainWord i)

/-- The bits that an address's kind names (R280, R281). -/
def addrNamed (a : Nat) : Nat :=
  match addrKind a with
  | 0 => 2 ^ 52 - 1
  | 1 => 0x7FF * 2 ^ 30 + 0xFFFFFF
  | 2 => 0x3FFF * 2 ^ 40 + 0xFFFFFF
  | 257 => 2 ^ 27 - 1
  | 259 | 260 => 0x3F * 2 ^ 46
  | 261 => 63
  | 262 => 2 ^ 48 - 1
  | _ => 0

/-- The bits of an address below its tag and kind. -/
def addrRest (a : Nat) : Nat := if addrKind a < 3 then a % 2 ^ 62 else a % 2 ^ 56

/-- SUB 0 of R283 for an address of which a cell accepts some kinds. R280 gives the group size codes 1 to 6; codes 0 and 7 count
as non-zero unnamed fields do (DESIGN CHOICE, log 131). -/
def addrRefused (kinds : List Nat) (a : Nat) : Bool :=
  !kinds.contains (addrKind a) || (addrRest a &&& addrNamed a) != addrRest a ||
  (addrKind a == 2 && (bits a 53 51 == 0 || bits a 53 51 == 7 || addrLow a % addrSize a != 0))

/-- An address of a transfer with what R283 asks of it: the kinds its cell accepts (R282), and the alignment
of a virtual address. -/
structure AddrUse where
  a : Nat
  kinds : List Nat
  align : Nat
deriving DecidableEq, Repr

/-- The alignment that SUB 1 asks of an address. -/
def AddrUse.misaligned (u : AddrUse) : Bool :=
  match addrKind u.a with
  | 0 => addrVa u.a % u.align != 0
  | 1 | 2 => addrOff u.a % 16 != 0
  | 257 => addrStg u.a % 16 != 0
  | 261 => u.a % 64 % 16 != 0
  | 262 => u.a % 2 ^ 24 % 16 != 0
  | _ => false

/-- A range of n bytes from an address crosses the end of a part of the window, of a port's staging or of a
resource (SUB 1). -/
def AddrUse.crosses (n : Nat) (u : AddrUse) : Bool :=
  match addrKind u.a with
  | 1 | 2 => decide (windowEnd (addrOff u.a) < addrOff u.a + n)
  | 257 => n != 0 && addrStg u.a / 0x800000 != (addrStg u.a + n - 1) / 0x800000
  | 261 => decide (64 < u.a % 64 + n)
  | 262 => decide (2 ^ 24 < u.a % 2 ^ 24 + n)
  | _ => false

/-- A local data handle whose row starts or row byte lengths are not multiples of 16 (SUB 1). -/
def rowsMisaligned (h : HandleBits) : Bool :=
  hRows h != 0 && (hRowBytes h % 16 != 0 || hBase h % 16 != 0 || (decide (1 < hD1 h) && hS1 h % 16 != 0) ||
    (decide (1 < hD2 h) && hS2 h % 16 != 0))

/-- A logical core, or a member of a group, outside the task's gang (SUB 2). -/
def outsideGang (c : Core) (u : AddrUse) : Bool :=
  let out := fun lo n => decide (lo < c.gangOrigin ∨ c.gangOrigin + c.gangSize < lo + n)
  match addrKind u.a with
  | 1 => out (addrCore u.a) 1
  | 2 => out (addrLow u.a) (addrSize u.a)
  | _ => false

/-- The checks of R283 for a transfer: its addresses, its data handle, its n and whether that counts bytes, so that
ranges of it are checked; the lowest SUB that fails, in the order its row lists. ETVAL of misaligned rows is the n of the
cell, of XGTH and XENC a count of rows (DEDUCED, log 73). -/
def xferTrap (c : Core) (us : List AddrUse) (data : Option HandleBits) (k : Nat) (bytes : Bool) (own : Option Nat) :
    Option Trap :=
  match us.find? (fun u => addrRefused u.kinds u.a) with
  | some u => some (xfault c 0 (u.a / 2 ^ 32))
  | none =>
  match us.find? (·.misaligned) with
  | some u => some (xfault c 1 u.a)
  | none =>
  if data.any rowsMisaligned then some (xfault c 1 k)
  else match own with
  | some v => some (xfault c 1 v)
  | none =>
  if bytes && (k % 16 != 0 || data.any (fun h => decide (hBytes h < k))) then some (xfault c 1 k)
  else match (if bytes then us.find? (·.crosses k) else none) with
  | some u => some (xfault c 1 u.a)
  | none => (us.find? (outsideGang c)).map (fun u => xfault c 2 u.a)

/-! ## Dispatching -/

/-- A transfer takes the next identifier of its channel (R275). -/
def xferEntry (i : Instr) (h : Hdr) (hs : List HandleBits) (xs : List Nat) (c : Core) : Dispatch :=
  let ch := (xferChan i).getD 0
  let id := vec4 c.csr.xnext ch
  .entry { c with csr := { c.csr with xnext := c.csr.xnext.setIfInBounds ch (id + 1) } }
    { entryOf i h hs xs c with xid := id }

/-- Dispatch of a transfer (R275, R283): R21, then the format and shape checks of its cell, then R283. -/
def xferDispatch (i : Instr) (h : Hdr) (us : List HandleUse) (cell : Option Nat) (chk : Option Trap)
    (xs : List Nat) (c : Core) : Dispatch :=
  match handleTrap c (mainWord i) us with
  | some t => .trap t
  | none =>
    match cell with
    | some sub => .trap (illegal i c sub)
    | none =>
      match chk with
      | some t => .trap t
      | none => xferEntry i h (us.map (·.h)) xs c

/-- The address in a register pair, and those in a quad. -/
def pairAddr (c : Core) (a : BitVec 5) : Nat := c.group (2 * a.toNat) 1
def quadLow (c : Core) (a : BitVec 4) : Nat := c.group (4 * a.toNat) 1
def quadHigh (c : Core) (a : BitVec 4) : Nat := c.group (4 * a.toNat + 2) 1

/-- The count n (R283): the LIMM value, or the bytes of a handle. -/
def countOf (h : Hdr) (d : HandleBits) : Nat := (limmVal h).getD (hBytes d)

/-- A transfer of bytes between one data handle and one address. -/
def byteXfer (i : Instr) (h : Hdr) (x : BitVec 4) (dest : Bool) (a : BitVec 5) (kinds : List Nat)
    (cell : HandleBits → Option Nat) (s : State) : Out :=
  dispatch i h .E (exchangeOnly i) (fun c =>
    let d := c.handle x.toNat
    let n := countOf h d
    let t := pairAddr c a
    xferDispatch i h [⟨d, dest⟩] (cell d) (xferTrap c [⟨t, kinds, 16⟩] (some d) n true none) [t, 0, n] c) s

/-- XPUT (R289). -/
def execXput (h : Hdr) (ss : BitVec 4) (a : BitVec 5) (c q : BitVec 2) (s : State) : Out :=
  byteXfer (.xput h ss a c q) h ss false a [1] (fun _ => none) s

/-- XGET (R289). -/
def execXget (h : Hdr) (d : BitVec 4) (a : BitVec 5) (c q : BitVec 2) (s : State) : Out :=
  byteXfer (.xget h d a c q) h d true a [1, 261] (fun _ => none) s

/-- XBC (R290). -/
def execXbc (h : Hdr) (ss : BitVec 4) (a : BitVec 5) (c q : BitVec 2) (s : State) : Out :=
  byteXfer (.xbc h ss a c q) h ss false a [2] (fun _ => none) s

/-- XLD (R293). -/
def execXld (h : Hdr) (d : BitVec 4) (a : BitVec 5) (c q : BitVec 2) (s : State) : Out :=
  byteXfer (.xld h d a c q) h d true a [257] (fun _ => none) s

/-- XPF (R292): the source address in the low pair, the slot in the high one. -/
def execXpf (h : Hdr) (a : BitVec 4) (c : BitVec 2) (s : State) : Out :=
  dispatch (.xpf h a c) h .E (exchangeOnly (.xpf h a c)) (fun k =>
    let n := (limmVal h).getD 0
    xferDispatch (.xpf h a c) h [] none
      (xferTrap k [⟨quadLow k a, [0], 16⟩, ⟨quadHigh k a, [257], 16⟩] none n true none)
      [quadLow k a, quadHigh k a, n] k) s

/-- XST (R294): the slot in the low pair, the write-back address in the high one. -/
def execXst (h : Hdr) (ss : BitVec 4) (a : BitVec 4) (c q : BitVec 2) (s : State) : Out :=
  dispatch (.xst h ss a c q) h .E (exchangeOnly (.xst h ss a c q)) (fun k =>
    let d := k.handle ss.toNat
    let n := countOf h d
    xferDispatch (.xst h ss a c q) h [⟨d, false⟩] none
      (xferTrap k [⟨quadLow k a, [257], 16⟩, ⟨quadHigh k a, [0], 16⟩] (some d) n true none)
      [quadLow k a, quadHigh k a, n] k) s

/-- The formats of a group reduction (R297). -/
def ldgFormat (m : Nat) (h : HandleBits) : Bool :=
  match m with
  | 0 => [0, 1, 2, 12].contains (hFmt h)
  | 3 => [8, 12, 13, 14].contains (hFmt h)
  | _ => [0, 1, 2, 8, 12, 13, 14].contains (hFmt h)

/-- XLDG (R296, R297). -/
def execXldg (h : Hdr) (d : BitVec 4) (a : BitVec 5) (c m : BitVec 2) (s : State) : Out :=
  byteXfer (.xldg h d a c m) h d true a [2] (fun k => if ldgFormat m.toNat k then none else some 5) s

/-- The formats of an atomic operation (R299). -/
def atomFormat (o : Nat) (h : HandleBits) : Bool :=
  match o with
  | 1 => hFmt h == 0
  | 2 | 3 => hFmt h == 0 || hFmt h == 12
  | _ => hFmt h == 12

/-- XATM (R299): the operand handle's BASE is 32-aligned and the address 4-aligned. -/
def atomXfer (i : Instr) (h : Hdr) (o ss : BitVec 4) (a : BitVec 5) (s : State) : Out :=
  dispatch i h .E (exchangeOnly i) (fun c =>
    let d := c.handle ss.toNat
    let t := pairAddr c a
    xferDispatch i h [⟨d, false⟩] (if atomFormat o.toNat d then none else some 5)
      (xferTrap c [⟨t, [0], 4⟩] none 16 false (if hBase d % 32 = 0 then none else some (hBase d))) [t, 0, 16] c) s

/-- XATM at group scope (R299, R328). -/
def execXatmGrp (h : Hdr) (o ss : BitVec 4) (a : BitVec 5) (c : BitVec 2) (m : BitVec 3) (s : State) : Out :=
  atomXfer (.xatmGrp h o ss a c m) h o ss a s

/-- XATM at gang scope (R299, R328). -/
def execXatmGang (h : Hdr) (o ss : BitVec 4) (a : BitVec 5) (c : BitVec 2) (m : BitVec 3) (s : State) : Out :=
  atomXfer (.xatmGang h o ss a c m) h o ss a s

/-- XATM at device scope (R299, R328). -/
def execXatmDev (h : Hdr) (o ss : BitVec 4) (a : BitVec 5) (c : BitVec 2) (m : BitVec 3) (s : State) : Out :=
  atomXfer (.xatmDev h o ss a c m) h o ss a s

/-- XATM at system scope (R299, R328). -/
def execXatmSys (h : Hdr) (o ss : BitVec 4) (a : BitVec 5) (c : BitVec 2) (m : BitVec 3) (s : State) : Out :=
  atomXfer (.xatmSys h o ss a c m) h o ss a s

/-- XGTH (R301): n counts rows of hd. -/
def execXgth (h : Hdr) (d ss : BitVec 4) (a : BitVec 5) (c : BitVec 2) (s : State) : Out :=
  dispatch (.xgth h d ss a c) h .E (exchangeOnly (.xgth h d ss a c)) (fun k =>
    let hd := k.handle d.toNat
    let hs := k.handle ss.toNat
    let n := (limmVal h).getD (hCount hs)
    let t := pairAddr k a
    xferDispatch (.xgth h d ss a c) h [⟨hd, true⟩, ⟨hs, false⟩] (if hFmt hs = 12 then none else some 5)
      (xferTrap k [⟨t, [257], 16⟩] (some hd) n false (if hRows hd < n then some n else none)) [t, 0, n] k) s

/-- XENC (R302): n counts rows of hs. -/
def execXenc (h : Hdr) (ss : BitVec 4) (a : BitVec 5) (c : BitVec 2) (e : BitVec 1) (s : State) : Out :=
  dispatch (.xenc h ss a c e) h .E (exchangeOnly (.xenc h ss a c e)) (fun k =>
    let d := k.handle ss.toNat
    let t := pairAddr k a
    let n := (limmVal h).getD (hRows d)
    xferDispatch (.xenc h ss a c e) h [⟨d, false⟩] none (xferTrap k [⟨t, [259], 16⟩] (some d) n false none) [t, 0, n] k) s

/-- XDEC (R302). -/
def execXdec (h : Hdr) (d : BitVec 4) (a : BitVec 5) (c : BitVec 2) (s : State) : Out :=
  byteXfer (.xdec h d a c) h d true a [260] (fun _ => none) s

/-- XOVL (R303). -/
def execXovl (h : Hdr) (a : BitVec 5) (c : BitVec 2) (s : State) : Out :=
  dispatch (.xovl h a c) h .E (exchangeOnly (.xovl h a c)) (fun k =>
    xferDispatch (.xovl h a c) h [] none (xferTrap k [⟨pairAddr k a, [0, 257], 16⟩] none 64 false none)
      [pairAddr k a, 0, 64] k) s

/-- XSIG (R304): the virtual signal number is below SIGMAP.COUNT (R45), and names slot BASE + n. -/
def execXsig (h : Hdr) (a : BitVec 6) (c : BitVec 2) (m : BitVec 1) (s : State) : Out :=
  dispatch (.xsig h a c m) h .E (exchangeOnly (.xsig h a c m)) (fun k =>
    let n := (k.reg a.toNat).toNat
    if bits k.csr.sigmap.toNat 23 16 ≤ n then .trap (xfault k 3 n)
    else xferEntry (.xsig h a c m) h [] [bits k.csr.sigmap.toNat 15 0 + n, (limmVal h).getD 1, 0] k) s

/-- XLAUNCH (R305): the handle describes 64 bytes in one row. -/
def execXlaunch (h : Hdr) (ss : BitVec 4) (a : BitVec 5) (c : BitVec 2) (s : State) : Out :=
  dispatch (.xlaunch h ss a c) h .E (exchangeOnly (.xlaunch h ss a c)) (fun k =>
    let d := k.handle ss.toNat
    let t := pairAddr k a
    xferDispatch (.xlaunch h ss a c) h [⟨d, false⟩]
      (if hEmpty d || (hBytes d == 64 && hRows d == 1) then none else some 6)
      (xferTrap k [⟨t, [0], 128⟩] none 64 false none) [t, 0, 64] k) s

/-- XRDEV (R306). -/
def execXrdev (h : Hdr) (ss : BitVec 4) (a : BitVec 5) (c m : BitVec 2) (s : State) : Out :=
  byteXfer (.xrdev h ss a c m) h ss false a [262]
    (fun k => if [0, 1, 2, 12].contains (hFmt k) then none else some 5) s

/-! ## Landing counters, waits and fences -/

/-- Dispatch of an exchange instruction that is no transfer (R307 to R309). -/
def plainX (i : Instr) (h : Hdr) (xs : Core → List Nat) (s : State) : Out :=
  dispatch i h .E (exchangeOnly i) (fun c => .entry c (entryOf i h [] (xs c) c)) s

/-- XARM with a register (R307). -/
def execXarm (h : Hdr) (n : BitVec 3) (a : BitVec 6) (s : State) : Out :=
  plainX (.xarm h n a) h (fun c => [n.toNat, (c.reg a.toNat).toNat]) s

/-- XARM with a LIMM (R307). -/
def execXarmImm (h : Hdr) (n : BitVec 3) (s : State) : Out :=
  plainX (.xarmImm h n) h (fun _ => [n.toNat, (limmVal h).getD 0]) s

/-- XWAIT on a channel (R308): the identifier has been issued (R283). -/
def execXwait (h : Hdr) (a : BitVec 6) (c : BitVec 2) (s : State) : Out :=
  dispatch (.xwait h a c) h .E (exchangeOnly (.xwait h a c)) (fun k =>
    let x := k.reg a.toNat
    if (x - vec4 k.csr.xnext c.toNat).toNat < 2 ^ 31 then .trap (xfault k 4 x.toNat)
    else .entry k (entryOf (.xwait h a c) h [] [x.toNat] k)) s

/-- XWAIT on a landing counter (R308). -/
def execXwaitL (h : Hdr) (n : BitVec 3) (s : State) : Out :=
  plainX (.xwaitL h n) h (fun _ => [n.toNat]) s

/-- XFENCE (R309): it captures the identifier that the channel's next transfer takes. -/
def execXfence (h : Hdr) (c : BitVec 2) (s : State) : Out :=
  plainX (.xfence h c) h (fun k => [(vec4 k.csr.xnext c.toNat).toNat]) s

end Sys2Proof.Machine
end

