-- ==== Sys2Proof/Machine/Iris.lean ====
section
/-! DEFINITION. The Iris (12 R362 to R375): boundaries, the quiet sweep, time-outs, the watchdog, the delivery
of views, and what comes about with a boundary: pre-emption (13 R406, R407), checkpoints (16 R452), the end of
tasks (13 R391), signatures (16 R457) and the energy account (17 R474). -/

namespace Sys2Proof.Machine

/-! ## What the Iris sees -/

/-- A participant's READY has reached the Iris (R366). -/
def Core.readySeen (c : Core) : Bool := c.pst == .ready && c.sigLeft == 0

/-- A participant's XREADY has reached the Iris (R366). -/
def Core.xreadySeen (c : Core) : Bool := c.pst == .xready && c.sigLeft == 0

/-- The timers advance, and expiries are judged (R372). -/
def State.timed (s : State) : Bool := !s.stilled && !s.anyHalted

/-- CTO and XTO in force: 0 is taken as 1 (R374). -/
def Iris.ctoLimit (i : Iris) : Nat := max 1 i.ctoNow.toNat
def Iris.xtoLimit (i : Iris) : Nat := max 1 i.xtoNow.toNat

/-- The registers whose writes apply from the next advance are taken over (R374), PHASE advances, and the
timers start again: they are 0 in the core cycle after this one (R367, R370, R371). -/
def Iris.advance (i : Iris) (views : NatSet) : Iris :=
  { i with
    phase := i.phase + 1
    ctoNow := i.cto, xtoNow := i.xto, wdogNow := i.wdog, slimNow := i.slim
    ctimer := 0, xtimer := 0, wtimer := 0, fresh := true, expiries := 0, sweep := none
    deliver := views, busLeft := 4 }

/-! ## Compute to exchange -/

/-- The conditions of R364, beside those that a watchdog which has removed every participant meets (R371). -/
def State.oddDue (s : State) : Bool :=
  let i := s.iris
  !s.inExchange && i.deliver.isEmpty && !s.stilled && s.map.backs.isEmpty &&
  i.pmask.all (fun p =>
    let c := s.coreAt p
    c.readySeen || setHas i.smask p || c.pst == .straggler) &&
  (i.pmask.any (fun p => (s.coreAt p).readySeen) || (i.pmask.isEmpty && decide (i.wdogNow.toNat < i.wtimer)))

/-- Every member of a gang is at ITER with nothing under way in this exchange (R406). -/
def State.preemptible (s : State) (g : Gang) : Bool :=
  !g.nopre && g.live.all (fun p =>
    let c := s.coreAt p
    setHas s.iris.inExchange p && c.iterMark && c.engE.queue.isEmpty && c.xfers.isEmpty &&
    c.queues.toList.all (·.isEmpty))

/-- PREEMPT_FLAG_DELIVERY (R407): a flagged gang that is pre-emptible takes PREEMPT, and a pre-empt record is
written (R405). -/
def State.preemptGang (s : State) (g : Gang) : State :=
  if !g.flagged || !s.preemptible g then s
  else
    let unflag := fun (x : Gang) => if x = g then { x with flagged := false } else x
    let s := { s with dist := { s.dist with gangs := s.dist.gangs.map unflag } }
    (s.eachCore g.live (fun c => { c with pend := { c.pend with preempt := true, swap := false } })).logGang 2 g g.members

/-- The participants of a context (R452). -/
def State.participants (s : State) (c : Nat) : List Nat := (s.coresOf c).filter (setHas s.iris.pmask)

/-- A core has an empty E queue and empty queue registers (R452). -/
def Core.clear (c : Core) : Bool := c.engE.queue.isEmpty && c.queues.toList.all (·.isEmpty)

/-- Bits [51:20] of a core's checkpoint area (R452). -/
def DebugCtx.area (d : DebugCtx) (k : Nat) (c : Core) : Word :=
  BitVec.ofNat 32 ((d.ckbase.toNat + (d.slotOf k * 1536 + c.csr.coreL.toNat) * 2 ^ 20) / 2 ^ 20)

/-- CHECKPOINT_EXCHANGE (R452) for a context: the exchanges that have begun since its last checkpoint or its first
launch are counted, this one among them; the checkpoint is taken in deterministic mode. -/
def State.checkpoint (s : State) (c : Nat) : State :=
  let d := s.debugCtx c
  let n := bits d.ckctl.toNat 15 0
  let ps := s.participants c
  let b := d.begun.map (· + 1)
  if !s.det || n == 0 || ps.isEmpty || !decide (n ≤ b.getD 0) || !ps.all (fun p => (s.coreAt p).clear) then
    s.putDebugCtx c { d with begun := b }
  else
    let k := d.ckidx.toNat
    (s.eachCore ps (fun x => { x with pend := { x.pend with step := x.pend.step ++ [(2, d.area k x)] } })).putDebugCtx c
      { d with ckidx := d.ckidx + 1, begun := some 0 }

/-- A sliced gang's cores take PREEMPT at every exchange, to swap the slots (R395). -/
def State.swapSlots (s : State) : State :=
  s.iris.inExchange.foldl (fun s p =>
    let c := s.coreAt p
    if s.sliced c && !c.pend.preempt then
      s.setCore p { c with pend := { c.pend with preempt := true, swap := true } }
    else s) s

/-- PHASE_ADVANCE_ODD (R364): PHASE becomes odd; stragglers of earlier markings are entered in SMASK again
(R368); the others take part in the exchange. -/
def State.advanceOdd (s : State) : State :=
  let i := s.iris
  let late := i.pmask.filter (fun p => setHas i.smask p || (s.coreAt p).pst == .straggler)
  let on := i.pmask.filter (fun p => !setHas late p)
  let s := { s with iris := { i.advance i.pmask with smask := late, inExchange := on } }
  let s := s.eachCore on (fun c => { c with dbg := { c.dbg with sig := 0 } })
  let s := s.dist.gangs.foldl (fun s g => s.preemptGang g) s
  let s := (List.range 64).foldl (fun s c => s.checkpoint c) s
  s.swapSlots

/-- PHASE_ADVANCE_ODD (R364). -/
def execPhaseAdvanceOdd (s : State) : Out :=
  onDevice s (fun s => if s.oddDue then some s.advanceOdd else none)

/-! ## The quiet sweep -/

/-- The head of a core's E queue cannot begin (R279). -/
def State.headStuck (s : State) (c : Core) : Bool :=
  match c.current .E with
  | none => true
  | some x =>
    !x.waits.all (waitDone c) ||
    (match x.instr with
     | .xwait _ _ ch => !c.idDone ch.toNat (BitVec.ofNat 32 (x.num 0))
     | .xwaitL .. => (c.csr.land[x.num 0]?.getD 0) != 0
     | .xfence _ ch => !c.idDone ch.toNat (BitVec.ofNat 32 (x.num 0) - 1)
     | .xsig .. => !ownCondition c x
     | _ => false)

/-- The E-side condition of R279 for a core: what it has begun is complete or deferred, and the head of its queue
cannot begin, or its engine is frozen. -/
def State.eSideQuiet (s : State) (c : Core) : Bool :=
  c.xfers.all (fun y => !y.deferred.isEmpty && y.pieces.isEmpty && y.acks.isEmpty) &&
  (c.engE.frozen || s.headStuck c)

/-- The conditions of R365. -/
def State.quiet (s : State) : Bool :=
  s.inExchange && s.iris.deliver.isEmpty && !s.stilled &&
  s.iris.inExchange.all (fun p =>
    let c := s.coreAt p
    c.xreadySeen && s.eSideQuiet c)

/-- The core cycles of a quiet sweep (R365). -/
def sweepCycles : Nat := 16

/-- QUIET_SWEEP_BEGIN (R365). -/
def execQuietSweepBegin (s : State) : Out :=
  onDevice s (fun s =>
    if s.quiet && s.iris.sweep.isNone then some { s with iris := { s.iris with sweep := some sweepCycles } } else none)

/-! ## Signatures -/

/-- A bit of DBGSTAT (R450). -/
def Core.setDbgstat (c : Core) (bit : Nat) (b : Bool) : Core :=
  { c with csr := { c.csr with dbgstat :=
      if b then c.csr.dbgstat ||| BitVec.ofNat 32 (2 ^ bit) else c.csr.dbgstat &&& ~~~BitVec.ofNat 32 (2 ^ bit) } }

/-- SLCTL.MODE of a context, with RPLAY on its cores (R450, R463). -/
def State.setMode (s : State) (c m : Nat) : State :=
  (s.putDebugCtx c { s.debugCtx c with mode := m }).eachCore (s.coresOf c) (fun x => x.setDbgstat 3 (m == 2))

/-- The place of a core's entry in its context's signature log (R457). -/
def DebugCtx.slEntry (d : DebugCtx) (c : Core) : Nat :=
  (d.slbase.toNat + 8 * (c.dbg.xord.toNat * 1536 + c.csr.coreL.toNat)) % 2 ^ 52

/-- A log access failed: the log is off, and DUSTAT.SLF is set (R457). -/
def State.logOff (s : State) (c : Nat) : State :=
  ({ s with debugUnit := { s.debugUnit with slf := true } } : State).setMode c 0

/-- Record the signatures of a context's cores (R457), each in its own access; whether one failed. -/
def State.recordSigs (s : State) (c : Nat) : List Nat → State × Bool
  | [] => (s, false)
  | p :: ps =>
    let k := s.coreAt p
    let va := (s.debugCtx c).slEntry k
    match s.writeFor (unitOf va) c k.csr.asid.toNat (some p) va (bytesOfNat 8 k.dbg.sig.toNat) with
    | (s, .ok _) => s.recordSigs c ps
    | (s, .error _) => ((s.recordSigs c ps).1, true)

/-- Compare the signatures of a context's cores with their entries (R457), each in its own access: the cores that diverge,
and whether an access failed. -/
def State.compareSigs (s : State) (c : Nat) : List Nat → State × List Nat × Bool
  | [] => (s, [], false)
  | p :: ps =>
    let k := s.coreAt p
    let va := (s.debugCtx c).slEntry k
    match s.readFor (unitOf va) c k.csr.asid.toNat (some p) va 8 with
    | (s, .error _) =>
      let r := s.compareSigs c ps
      (r.1, r.2.1, true)
    | (s, .ok bs) =>
      let r := s.compareSigs c ps
      if natOfBytes bs = k.dbg.sig.toNat then r else (r.1, p :: r.2.1, r.2.2)

/-- The core of a list with the lowest logical number. -/
def State.lowestLogical (s : State) : List Nat → Option Nat
  | [] => none
  | p :: ps =>
    match s.lowestLogical ps with
    | none => some p
    | some q => some (if (s.coreAt q).csr.coreL.toNat < (s.coreAt p).csr.coreL.toNat then q else p)

/-- A divergence (R457): the lowest logical core that diverges decides between a halt of its gang and the end
of the replay. -/
def State.diverge (s : State) (c : Nat) (ps : List Nat) : State :=
  match s.lowestLogical ps with
  | none => s
  | some q =>
    let k := s.coreAt q
    let s := s.eachCore ps (fun x => x.setDbgstat 5 true)
    let s := { s with debugUnit := { s.debugUnit with div := true, divphase := s.iris.phase, divcore := k.csr.coreL } }
    let gang := q :: s.partners q
    if wbit k.csr.dbgctl 3 then
      s.eachCore gang (fun x => { x with pend := { x.pend with halt := some (x.pend.halt.getD 6) } })
    else (s.setMode c 0).eachCore gang (fun x => x.setDbgstat 4 true)

/-- SIGNATURE_COMPARE (R457) for a context, over its cores in the exchange that ends. -/
def State.signatures (s : State) (c : Nat) : State :=
  let ps := (s.coresOf c).filter (setHas s.iris.inExchange)
  match (s.debugCtx c).mode with
  | 1 =>
    let r := s.recordSigs c ps
    if r.2 then r.1.logOff c else r.1
  | 2 =>
    let r := s.compareSigs c ps
    let s := r.1.diverge c r.2.1
    if r.2.2 then s.logOff c else s
  | _ => s

/-! ## The end of tasks -/

/-- GANG_END (R391): the END event, and the completion of the record where no member was pre-empted; the launch bus holds
both while the event finds no room (R378). -/
def State.gangEnd (s : State) (g : Gang) : State :=
  State.reportEnds { s with dist := { s.dist with ended := s.dist.ended ++ [(g, !g.preempted)] } } (s.dist.ended.length + 1)

/-- A member leaves its gang (R391). -/
def State.leaveGang (s : State) (p : Nat) (g : Gang) (pre disc : Bool) : State :=
  let g' : Gang := { g with live := setDel g.live p, preempted := g.preempted || pre, discarded := g.discarded || disc }
  if g'.live.isEmpty then
    State.gangEnd { s with dist := { s.dist with gangs := s.dist.gangs.erase g } } g'
  else { s with dist := { s.dist with gangs := s.dist.gangs.map (fun x => if x = g then g' else x) } }

/-- The address of the SYNC that a core is held at, in user mode. -/
def Core.atSync (c : Core) (pc : Pc) : Bool :=
  match c.held with
  | some { instr := .sync .., .. } => c.pc == pc && !c.csr.priv
  | _ => false

/-- A member's part of a task ends at this boundary (R391). -/
def Core.endsNow (c : Core) : Bool :=
  match c.task with
  | none => false
  | some t => c.pst == .xready && (c.atSync t.endpc || t.preempting)

/-- Every logical core that a physical core runs for a gang has ended, with logical core l (R391, R395). -/
def Gang.lastSlot (g : Gang) (p l : Nat) : Bool :=
  (List.range g.members.length).all (fun i =>
    g.members[i]? != some p || g.origin + i == l || setHas g.ended (g.origin + i))

/-- Logical core l of a sliced gang ends on a physical core that has others of the gang to run (R391, R392, R395): its work
is settled, and its slot is idle from then on. -/
def State.endSlot (s : State) (p l : Nat) (g : Gang) (disc : Bool) : State :=
  if setHas g.ended l then s
  else
    let g' : Gang := { g with ended := setAdd g.ended l, discarded := g.discarded || disc }
    let s := s.settleMember p
    { s with dist := { s.dist with gangs := s.dist.gangs.map (fun x => if x = g then g' else x) } }

/-- MEMBER_END (R391, R392): the writes held until the member's exchange SYNC are applied (R110, R315), its work is
settled, it becomes ABSENT and leaves its gang. A physical core of a sliced gang runs on until the last of its logical cores
has ended, of which CORE_L names the one that ends (R395; DEDUCED, log 49). -/
def State.endMember (s : State) (p : Nat) : State :=
  let c := s.coreAt p
  let l := c.csr.coreL.toNat
  let pre := (c.task.map (·.preempting)).getD false
  let leave := ((s.settleMember p).onCoreAt p Core.applyHeld).makeAbsent p
  if !c.endsNow then s
  else match s.gangOf p with
  | none => leave
  | some g =>
    if s.sliced c && !pre && !g.lastSlot p l then s.endSlot p l g c.holdsWork
    else leave.leaveGang p g pre c.holdsWork

/-! ## Exchange to compute -/

/-- EALLOW_PUBLISH (R474): the account in nJ, with the energy measured since the last publication. The microcode counts
the energy placed anew from EPUB on, as that is queued (R378, R400). -/
def State.publishEnergy (s : State) (emeas : Nat) : State :=
  let w := s.power
  let dt := s.time.toNat - w.tlast.toNat
  let a := min (w.pburst * 1000) (w.account + w.plim * dt) - emeas
  let e : Word := BitVec.ofNat 32 (min (a / 1000) 0xFFFFFFFF)
  let s := { s with power := { w with account := a, tlast := s.time }
                    dist := { s.dist with eallowd := e } }
  let s := if s.eventRoom 0 then { s with dist := s.dist.newPublication } else s
  s.notify 0 0x09 none none none (some e.toNat) none

/-- The logical core that a physical core of a sliced gang runs in the pair of supersteps of a PHASE (R395): none where no
logical core has the slot, or the one that has it has ended. -/
def State.slotCore (s : State) (g : Gang) (p : Nat) (phase : BitVec 64) : Option Nat :=
  (List.range' g.origin g.size).find? (fun l =>
    let e := s.mirrorEntry l
    bits e 10 0 == p && bits e 22 20 == phase.toNat / 2 % bits e 19 16 && !setHas g.ended l)

/-- GROUP of a logical core (R388). -/
def groupOf (l : Nat) : BitVec 11 := BitVec.ofNat 11 (l % 64 + 64 * (l / 64))

/-- CORE_L and GROUP of a sliced gang's core present the logical core that runs in the pair of a PHASE (R395). -/
def State.presentSlot (s : State) (p : Nat) (phase : BitVec 64) : State :=
  let c := s.coreAt p
  if !s.sliced c then s
  else match (s.gangOf p).bind (fun g => s.slotCore g p phase) with
    | some l => s.setCore p { c with csr := { c.csr with coreL := BitVec.ofNat 11 l, group := groupOf l } }
    | none => s

/-- PHASE_ADVANCE_EVEN (R365): signatures, the members that end, PHASE becomes even, and the energy account is
published. Sliced gangs present the logical cores of the pair that begins. -/
def State.advanceEven (s : State) (emeas : Nat) : State :=
  let s := (List.range 64).foldl (fun s c => s.signatures c) s
  let on := s.iris.inExchange
  let s := s.eachCore on (fun c =>
    if c.userCode then { c with dbg := { c.dbg with xord := c.dbg.xord + 1 } } else c)
  let s := { s with iris := { s.iris.advance on with smask := [], inExchange := [] } }
  let s := on.foldl (fun s p => s.endMember p) s
  let s := s.iris.deliver.foldl (fun s p => s.presentSlot p s.iris.phase) s
  s.publishEnergy emeas

/-- PHASE_ADVANCE_EVEN (R365): after a clean quiet sweep. emeas is the energy measured since the last
publication, in nJ (R474). -/
def execPhaseAdvanceEven (emeas : Nat) (s : State) : Out :=
  onDevice s (fun s => if s.quiet && s.iris.sweep == some 0 then some (s.advanceEven emeas) else none)

/-! ## The phase bus -/

/-- The SYNC that a core is held at retires as its view advances (R56). -/
def Core.passSync (c : Core) : Core :=
  match c.held with
  | some { instr := .sync h, .. } => c.retireFrom h 1 c
  | _ => c

/-- A PHASE record (R459). -/
def Core.tracePhase (c : Core) (odd : Bool) : Core :=
  c.trace 2 (traceRecord (1 + 256 * bit odd) c.csr.phase.toNat c.csr.cycle.toNat c.csr.retired.toNat)

/-- A core's view becomes the chip's PHASE (R53). -/
def Core.setView (c : Core) (ph : BitVec 64) : Core := { c with csr := { c.csr with phase := ph } }

/-- A marking reaches a core (R368, R369): a core that computes becomes a STRAGGLER. It is no new marking where
the core had one and has not taken part in an exchange since. A HALTED core whose COMPUTE the mark meets resumes as a
STRAGGLER: R55 resumes it to the state it held before, and the mark changes that one (DESIGN CHOICE, log 91). -/
def State.markStraggler (s : State) (p : Nat) : State :=
  let c := s.coreAt p
  let new := c.pst == .compute || (c.pst == .ready && c.csr.strk == 0)
  let c := if c.pst = .compute then { c with pst := .straggler } else c
  if !new then s
  else
    let k : BitVec 8 := BitVec.ofNat 8 (min 255 (c.csr.strk.toNat + 1))
    let slim := s.iris.slimNow.toNat % 256
    let due := slim != 0 && decide (slim ≤ k.toNat)
    let s := s.setCore p { c with
      csr := { c.csr with strk := k }
      pend := { c.pend with straggle := c.pend.straggle || due } }
    if !due then s
    else
      let s := s.notify 0 0x05 (some c.ctx) none (some k.toNat) (some p) none
      match s.gangOf p with
      | some g => s.logGang 7 g g.members
      | none => s

/-- An odd PHASE reaches a core that takes part in the exchange (R56, R310): its exchange block begins. Its EALLOW changes with
the view (R474), and its iteration mark is cleared (R181): a straggler keeps its mark at the boundaries between, in whose
exchanges it takes no part (DEDUCED, log 113). -/
def State.enterExchange (s : State) (p : Nat) : State :=
  (s.onCoreAt p (fun c =>
    ({ (c.passSync).setView s.iris.phase with
        pst := .exchange
        iterMark := false
        csr := { ((c.passSync).setView s.iris.phase).csr with eallow := s.dist.eallowd } } : Core).tracePhase true)).startDeferred p

/-- The core cycles that applying held writes takes (R365). -/
def Core.heldCost (c : Core) : Nat :=
  ceilDiv (c.heldWrites.foldl (fun n w => n + w.data.length) 0) 16

/-- An even PHASE reaches a core (R56): held writes are applied, its EALLOW is the published one (R474), and
it computes. -/
def State.enterCompute (s : State) (p : Nat) : State :=
  s.onCoreAt p (fun c =>
    let n := c.heldCost
    let c := c.passSync.applyHeld
    ({ c.setView s.iris.phase with
        pst := .compute
        csr := { (c.setView s.iris.phase).csr with
          eallow := s.dist.eallowd, cycle := c.csr.cycle + BitVec.ofNat 64 n } } : Core).tracePhase false)

/-- PHASE_BUS_DELIVERY (R366) to core p. -/
def State.deliverView (s : State) (p : Nat) : State :=
  let s := { s with iris := { s.iris with deliver := setDel s.iris.deliver p } }
  if s.inExchange then
    if setHas s.iris.smask p then s.markStraggler p else s.enterExchange p
  else s.enterCompute p

/-- PHASE_BUS_DELIVERY (R366) to core p. -/
def execPhaseBusDelivery (p : Nat) (s : State) : Out :=
  onCore s p (fun _ s =>
    if setHas s.iris.deliver p && s.iris.busLeft == 0 && !s.stilled then some (s.deliverView p) else none)

/-! ## Time-outs -/

/-- COMPUTE_TIMEOUT_EXPIRY (R367): where some READY has arrived, the participants whose READY has not are
marked; else the timer starts again. -/
def State.computeTimeout (s : State) : State :=
  let i := s.iris
  if !i.pmask.any (fun p => (s.coreAt p).readySeen) then { s with iris := { i with ctimer := 0, fresh := true } }
  else
    let new := i.pmask.filter (fun p =>
      let c := s.coreAt p
      !c.readySeen && c.pst != .straggler && (c.pst != .ready || c.csr.strk == 0))
    { s with iris := { i with
        smask := new.foldl setAdd i.smask
        nstrag := i.nstrag + BitVec.ofNat 64 new.length
        ctimer := i.ctoLimit + 1 } }

/-- COMPUTE_TIMEOUT_EXPIRY (R367, R372). -/
def execComputeTimeoutExpiry (s : State) : Out :=
  onDevice s (fun s =>
    if !s.det && wbit s.iris.ictl 1 && !s.inExchange && s.timed && s.iris.ctimer == s.iris.ctoLimit then
      some s.computeTimeout else none)

/-- How a transfer in flight of core p fails at the exchange time-out (R311): its kind, member and address; one that has
failed before with that failure, an XLDG by the rows of R298, an XRDEV that only awaits acknowledgements with PEER (R441). An
XLDG whose present members' granules are all full is in flight too: it records TIMEOUT with MEMBER 0xFF (DESIGN CHOICE, log
125). -/
def State.timeoutKind (s : State) (p : Nat) (y : Xfer) : Nat × Nat × Nat :=
  let x := y.entry
  let a := s.pieceAddr p x (y.pieces.headD 0) 0
  match y.stopped, x.instr with
  | some (m, k), _ => (k, 0xFF, m.va)
  | none, .xldg .. =>
    let ms := s.ldgMembers (s.coreAt p) x
    let gs := y.pieces.flatMap (pieceGranules x.count)
    (match lowestFail (gs.filterMap (s.ldgOutcome p x ms gs)) with
     | some f => (f.1, f.2, x.granuleAddr ((gs.find? (fun j => s.ldgOutcome p x ms gs j == some f)).getD 0))
     | none => (kTimeout, 0xFF, a))
  | none, .xrdev .. => (if y.pieces.isEmpty then kPeer else kTimeout, 0xFF, a)
  | none, _ => (kTimeout, 0xFF, a)

/-- A transfer in flight fails at the exchange time-out (R311, R370), as the state `seen` of that moment has it. What
is deferred stays. The result granules of an XLDG that have a value take it (R298; DESIGN CHOICE, log 125). -/
def State.timeoutXfer (s seen : State) (p : Nat) (y : Xfer) : State :=
  let x := y.entry
  match y.stopped, x.instr with
  | some (m, k), _ => s.stopXfer p y m k
  | none, .xldg .. =>
    let ms := seen.ldgMembers (seen.coreAt p) x
    let s := (y.pieces.flatMap (pieceGranules x.count)).foldl (fun s j => s.ldgLand seen p x ms j) s
    s.onXfer p x.chan x.xid (fun y => { y with pieces := [], failed := true })
  | none, _ => s.fail p x kTimeout

/-- A transfer is in flight: begun, and neither complete nor only deferred. -/
def Xfer.inFlight (y : Xfer) : Bool := !y.landedAll && !(y.pieces.isEmpty && y.acks.isEmpty && !y.deferred.isEmpty)

/-- Put a failed transfer before those of a higher kind, and of the same kind before those further from XDONE (R287). -/
def insertFailed (x : Nat × Nat × Xfer) : List (Nat × Nat × Xfer) → List (Nat × Nat × Xfer)
  | [] => [x]
  | y :: t => if x.1 < y.1 ∨ (x.1 = y.1 ∧ x.2.1 ≤ y.2.1) then x :: y :: t else y :: insertFailed x t

/-- The transfers in flight of core p, in the order in which their failures of one cycle are recorded (R287). -/
def State.failedOrder (s : State) (p : Nat) : List Xfer :=
  let c := s.coreAt p
  ((c.xfers.filter (·.inFlight)).foldr (fun y l =>
    insertFailed ((s.timeoutKind p y).1, (y.entry.xid - vec4 c.csr.xdone y.entry.chan).toNat, y) l) []).map (·.2.2)

/-- The transfers in flight of core p fail at the exchange time-out (R370 step 1), as the state `seen` has them: their
records in the order of R287, their bytes in the order in which they were dispatched (R317). -/
def State.timeoutCore (s seen : State) (p : Nat) : State :=
  let s := (seen.failedOrder p).foldl (fun s y =>
    let f := seen.timeoutKind p y
    s.noteFail p y.entry f.1 f.2.1 f.2.2) s
  ((seen.coreAt p).xfers.filter (·.inFlight)).foldl (fun s y => s.timeoutXfer seen p y) s

/-- EXCHANGE_TIMEOUT_EXPIRY (R370): the transfers in flight fail; the participants that are not XREADY take
EXTIME, or at a further expiry are removed with their contexts. -/
def State.exchangeTimeout (s : State) : State :=
  let on := s.iris.inExchange
  let n := s.iris.expiries
  let s := (s.cores.map (·.phys)).foldl (fun t p => t.timeoutCore s p) s
  let late := on.filter (fun p => (s.coreAt p).pst != .xready)
  let s := if n = 0 then
      s.eachCore late (fun c => { c with pend := { c.pend with extime := some 0 } })
    else late.foldl (fun s p => s.faultCore p) s
  { s with iris := { s.iris with xtimer := 0, fresh := true, nxexp := s.iris.nxexp + 1, expiries := n + 1 } }

/-- EXCHANGE_TIMEOUT_EXPIRY (R370, R372). -/
def execExchangeTimeoutExpiry (s : State) : Out :=
  onDevice s (fun s =>
    if !s.det && wbit s.iris.ictl 2 && s.inExchange && s.timed && s.iris.xtimer == s.iris.xtoLimit then
      some s.exchangeTimeout else none)

/-- The contexts that the watchdog's expiry faults (R371). -/
def State.laggards (s : State) : List Nat :=
  if s.inExchange then
    (s.iris.inExchange.filter (fun p =>
      let c := s.coreAt p
      c.pst != .xready || !c.xfers.isEmpty))
  else s.iris.pmask.filter (fun p => !(s.coreAt p).readySeen)

/-- WATCHDOG_EXPIRY (R371): the contexts of the laggards fault, one after the other. -/
def State.watchdog (s : State) : State :=
  let s' := s.laggards.foldl (fun s p => s.faultCore p) s
  { s' with iris := { s'.iris with wtimer := s.iris.wdogNow.toNat + 1 } }

/-- WATCHDOG_EXPIRY (R371, R372). -/
def execWatchdogExpiry (s : State) : Out :=
  onDevice s (fun s =>
    if s.det && s.timed && s.iris.wdogNow != 0 && s.iris.wtimer == s.iris.wdogNow.toNat then some s.watchdog else none)

/-! ## Registers -/

/-- A write to ICTL (R363, R375): DET changes only while there is no participant. -/
def Iris.writeIctl (i : Iris) (v : Word) : Iris :=
  let refused := wbit v 0 != wbit i.ictl 0 && !i.pmask.isEmpty
  { i with ictl := if refused then (v &&& 6) ||| (i.ictl &&& 1) else v &&& 7, rej := i.rej || refused }

/-- ICTL_WRITE (R363, R374). -/
def execIctlWrite (v : BitVec 32) (s : State) : Out := s.request 2 (fun s => { s with iris := s.iris.writeIctl v })

end Sys2Proof.Machine
end

