-- ==== Sys2Proof/Machine/Launch.lean ====
section
/-! DEFINITION. The launch bus (13 R385 to R391, R396, R405, R409): the checks of a loop record, what a launch
writes into its members, and their entry into COMPUTE. -/

namespace Sys2Proof.Machine

/-! ## The loop record -/

/-- A field of n bytes of the loop record at LBREC (R385). -/
def State.recField (s : State) (off n : Nat) : Nat := s.gddrLE (s.dist.lbrec.toNat + off) n

/-- The fields of the loop record (R385). -/
def State.recTrip (s : State) : Nat := bits (s.recField 0x08 4) 23 0
def State.recOvaddr (s : State) : Nat := bits (s.recField 0x10 8) 51 0
def State.recParam (s : State) : Nat := bits (s.recField 0x18 8) 51 0
def State.recPsize (s : State) : Nat := bits (s.recField 0x18 8) 62 52
def State.recRset (s : State) : Nat := bits (s.recField 0x20 8) 51 0
def State.recEntries (s : State) : Nat := bits (s.recField 0x20 8) 56 52
def State.recSize (s : State) : Nat := bits (s.recField 0x3E 2) 10 0 + 1

/-- The origin, RESUME and the queue index of LBARG (R379). -/
def State.lbOrigin (s : State) : Nat := bits s.dist.lbarg.toNat 10 0
def State.lbResume (s : State) : Bool := wbit s.dist.lbarg 11
def State.lbQueue (s : State) : Nat := bits s.dist.lbarg.toNat 27 16

/-- The fields of the record itself pass R386: fields that must be zero, limits and alignments; the record lies
in device memory and can be read. -/
def State.recordOk (s : State) : Bool :=
  let a := s.dist.lbrec.toNat
  decide (a + 64 ≤ gddrSize) && !s.gddrPoisoned a 64 &&
  bits (s.recField 0x08 4) 31 26 == 0 && bits (s.recField 0x10 8) 63 52 == 0 &&
  bits (s.recField 0x18 8) 63 63 == 0 && bits (s.recField 0x20 8) 63 57 == 0 &&
  bits (s.recField 0x3E 2) 15 11 == 0 && decide (s.recSize ≤ 1536) &&
  s.recField 0x02 2 % 4 == 0 && s.recField 0x06 2 % 4 == 0 &&
  decide (s.recPsize ≤ 1020) && s.recParam % 16 == 0 && decide (s.recEntries ≤ 16)

/-- The members' physical cores by member index (R388). -/
def State.lbMembers (s : State) : List Nat :=
  (List.range' s.lbOrigin s.recSize).map (fun l => bits (s.mirrorEntry l) 10 0)

/-- What the launch bus has read for a record that it does not reject. -/
structure Plan where
  queue : Nat
  qcb : Nat
  ctx : Nat
  asid : Nat
  header : List Byte
  body : List Byte
  params : List Byte
  granules : List Nat
deriving DecidableEq, Repr

/-- Read a virtual range for the launch bus (R385); none where it fails. -/
def State.busRead (s : State) (ctx asid va n : Nat) : State × Option (List Byte) :=
  match s.readFor (unitOf va) ctx asid none va n with
  | (s, .ok bs) => (s, some bs)
  | (s, .error _) => (s, none)

/-- The staging granules of a residency list, where every entry's other bits are zero and its staging lies in
the context's ranges (R386, R396). -/
def State.listGranules (s : State) (ctx : Nat) : Nat → List Byte → Option (List Nat)
  | 0, _ => some []
  | k + 1, bs =>
    let e := natOfBytes (bs.take 8)
    let n := bits e 47 32 + 1
    if e % 16 ≠ 0 ∨ bits e 31 27 ≠ 0 ∨ bits e 63 48 ≠ 0 ∨ !s.stgOwned ctx (bits e 26 0) (16 * n) then none
    else (s.listGranules ctx k (bs.drop 8)).map (List.range' (bits e 26 0 / 16) n ++ ·)

/-- Some member is cold, or warm with another overlay (R388 step 3): the image is read. -/
def State.needsImage (s : State) (ctx : Nat) : Bool :=
  s.lbMembers.any (fun p => (s.coreAt p).warm != some (ctx, s.recOvaddr))

/-- The overlay passes R386: its header, its PARAMSIZE, and page 15. -/
def State.headerOk (s : State) (ctx : Nat) (h : List Byte) : Bool :=
  ovAccepted h (bits (s.ctxWord ctx 0) 1 1 == 1) && decide (ovParams h ≤ 4 * s.recPsize)

/-- Read what the record names (R386): none where a check fails. -/
def State.readPlan (s : State) (q qcb : Nat) : State × Option Plan :=
  let ctx := s.qCtx qcb
  let asid := s.qAsid qcb
  match s.busRead ctx asid s.recOvaddr 64 with
  | (s, none) => (s, none)
  | (s, some h) =>
    if !s.headerOk ctx h then (s, none)
    else match s.busRead ctx asid ((s.recOvaddr + 64) % 2 ^ 52) (if s.needsImage ctx then ovBodyLen h else 0) with
      | (s, none) => (s, none)
      | (s, some body) =>
        match s.busRead ctx asid s.recParam (4 * s.recPsize) with
        | (s, none) => (s, none)
        | (s, some ps) =>
          match s.busRead ctx asid s.recRset (8 * s.recEntries) with
          | (s, none) => (s, none)
          | (s, some l) =>
            (s, (s.listGranules ctx s.recEntries l).map (fun gs =>
              { queue := q, qcb := qcb, ctx := ctx, asid := asid, header := h, body := body, params := ps
                granules := gs }))

/-! ## Refusals -/

/-- LBSTAT.RESULT (R379). -/
def State.lbAnswer (s : State) (r : Nat) : State := { s with dist := { s.dist with lbresult := r } }

/-- A reject record of the decision log (R386, R405); the context of a record without a queue is not stated. -/
def State.logReject (s : State) (ctx : Option Nat) : State :=
  State.logWrite { s with nfree := s.nfree + 1 } 8 (bytesOfNat 1 8 ++ bytesOfNat 1 (s.orFree 0 ctx % 64) ++
    bytesOfNat 2 s.lbQueue ++ bytesOfNat 4 (s.recField 0x0C 4) ++ bytesOfNat 4 0 ++
    bytesOfNat 2 (slackOf s.dist.lbkey.toNat s.time.toNat) ++ bytesOfNat 2 (s.recField 0x3A 2))

/-- HEAD of a queue moves behind record i (R383, R387). -/
def State.passHead (s : State) (qcb i : Nat) : State := s.gddrPut (qcb + 0x0C) 4 (i + 1)

/-- BADREC (R386): with it, while a hart runs the shipped microcode (R464; log 111), its reject record; where the queue is known
the task completes with STATUS 3, and HEAD moves on. -/
def State.badRecord (s : State) (q : Option (Nat × Nat)) : State :=
  let s := s.lbAnswer 3
  if !s.microcodeRuns then s
  else match q with
  | none => s.logReject none
  | some (q, qcb) =>
    let i := s.dist.lbidx.toNat
    let s := s.logReject (some (s.qCtx qcb))
    let s := if s.lbResume then s else s.passHead qcb i
    s.completeRecord q i 3 s.dist.lbkey.toNat

/-- The gang cannot stand at its origin (R388 step 2). -/
def State.notFree (s : State) : Bool :=
  decide (1536 < s.lbOrigin + s.recSize) ||
  (List.range' s.lbOrigin s.recSize).any (fun l => bits (s.mirrorEntry l) 19 16 == 0) ||
  s.lbMembers.any (fun p => (s.coreAt p).task.isSome)

/-- NOTRES (R396): the set is watched, where fewer than 64 are. -/
def State.notResident (s : State) (gs : List Nat) : State :=
  let s := s.lbAnswer 4
  if 64 ≤ s.dist.watches.length then s
  else { s with dist := { s.dist with watches := s.dist.watches ++ [{ idx := s.dist.lbidx, granules := gs }] } }

/-! ## What a launch writes -/

/-- The bytes of the parameter window (R388 step 4) as writes into a cleared window, each at its offset. -/
def State.windowWrites (s : State) (pl : Plan) (l : Nat) : List (Nat × List Byte) :=
  let n := 4 * s.recPsize
  let first := readBytes s.dist.lbparam 0 (min 256 n)
  let trip := if s.qTripOff pl.qcb + 4 ≤ 4096 then [(s.qTripOff pl.qcb, bytesOfNat 4 s.recTrip)] else []
  let sd := s.qStream pl.qcb
  let rung := if sd ≠ 0 ∧ s.qRungOff pl.qcb + 16 ≤ 4096 then
      [(s.qRungOff pl.qcb, s.gddrBytes (sd + 0x40 + 16 * s.sdRung sd) 16)] else []
  let save := s.ctxWord pl.ctx 2 + 2 ^ 32 * s.ctxWord pl.ctx 3 + l * 2 ^ 20
  [(0, first), (256, pl.params.drop 256)] ++ trip ++ rung ++
    [(0xFF0, bytesOfNat 8 save ++ bytesOfNat 2 pl.queue ++ bytesOfNat 1 (bit s.lbResume) ++ bytesOfNat 5 0)]

/-- Page 15 of instruction memory from the body of Costamir's firmware (R390, R467, log 15). -/
def Core.firmwarePage15 (c : Core) (body : List Byte) : Core :=
  { c with imem := memFill c.imem 0xF000 0x10000 (fun a => Config.firmwarePage body (a - 0xF000))
           imemPoison := setDelRange c.imemPoison (0xF000 / 8) (0x10000 / 8) }

/-- The launch bus loads an overlay as XOVL would (R388 step 3, R110, R390). -/
def Core.loadOverlay (c : Core) (sup : Bool) (firmware h body : List Byte) : Core :=
  let c := ((c.openOverlay h).putBody body).closeOverlay.1
  let c := if sup then c else c.firmwarePage15 firmware
  { c with pageValid := c.pageValid ||| 0x8000, pageExec := c.pageExec ||| 0x8000 }

/-- The memories of a core at launch (R28, R52, R388): a cold core's scratchpad and accumulators are zeroed; the
window is cleared and written. -/
def Core.launchMem (c : Core) (warm : Bool) (ws : List (Nat × List Byte)) : Core :=
  let m := memZero c.mem (if warm then 0xA0000 else 0) 0xA1000
  { c with
    mem := ws.foldl (fun m w => writeBytes m (0xA0000 + w.1) w.2) m
    poison := setDelRange c.poison (if warm then 0xA0000 / 8 else 0) (0xA1000 / 8)
    full := [] }

/-- The CSRs of a member at launch (R45, R388): those that no rule lists are 0. -/
def State.launchCsrs (s : State) (pl : Plan) (l : Nat) : Csrs :=
  let w0 := s.ctxWord pl.ctx 0
  let sup := bits w0 1 1 == 1
  { Csrs.reset with
    supok := sup
    evec := if sup then BitVec.ofNat 32 (bits w0 31 16) &&& 0xFFFC else 0xF100
    coreL := BitVec.ofNat 11 l
    gang := BitVec.ofNat 22 ((l - s.lbOrigin) + 2 ^ 11 * (s.recSize - 1))
    group := groupOf l
    asid := BitVec.ofNat 12 pl.asid
    task := BitVec.ofNat 32 (s.recField 0x0C 4)
    seedlo := BitVec.ofNat 32 (s.recField 0x30 4)
    seedhi := BitVec.ofNat 32 (s.recField 0x34 4)
    sigmap := BitVec.ofNat 32 (bits (s.ctxWord pl.ctx 1) 23 0)
    pwin := BitVec.ofNat 13 (4 * s.recPsize)
    eallow := s.dist.eallowd
    dbgstat := if (s.debugCtx pl.ctx).mode = 2 then 8 else 0 }

/-- The first PC of a member (R388, R409). -/
def State.launchPc (s : State) : Pc :=
  if s.lbResume then 0xF000
  else if s.recField 0x00 2 = 0xFFFF then pcOf (BitVec.ofNat 32 (s.recField 0x02 2))
  else pcOf (BitVec.ofNat 32 (s.recField 0x00 2))

/-- The state of a member at launch (R52, R388): registers, handles, queues, counters, CSRs and PC. -/
def Core.launched (c : Core) (csr : Csrs) (pc : Pc) (ctx ovaddr : Nat) : Core :=
  let z := Core.reset c.phys
  { c with
    pc := pc, regs := z.regs, preds := z.preds, handles := z.handles, queues := z.queues, csr := csr
    held := none, iterMark := false, engV := .idle, engM := .idle, engL := .idle, engE := .idle
    matrix := { Matrix.reset with alarm := c.matrix.alarm, span := c.matrix.span }
    vmet := none, vrows := [], vpushed := false, lmet := none, xfers := [], faultRec := z.faultRec, heldWrites := []
    overlay := none, warm := some (ctx, ovaddr), saved := [], pend := .none, dbg := .reset }

/-- UCNT and XORD of a resumed member, from the area that the supervisor record names (R453); what a failed read
gives is not stated. -/
def State.reloadCounters (s : State) (pl : Plan) (l : Nat) : State × BitVec 64 × BitVec 64 :=
  let va := (s.ctxWord pl.ctx 2 + 2 ^ 32 * s.ctxWord pl.ctx 3 + l * 2 ^ 20 + 0xF0000) % 2 ^ 52
  match s.busRead pl.ctx pl.asid va 16 with
  | (s, some bs) => (s, BitVec.ofNat 64 (natOfBytes (bs.take 8)), BitVec.ofNat 64 (natOfBytes (bs.drop 8)))
  | (s, none) => ({ s with nfree := s.nfree + 2 }, BitVec.ofNat 64 (Config.freeNat s.nfree),
      BitVec.ofNat 64 (Config.freeNat (s.nfree + 1)))

/-- The CSRs with bits that no CSR write sets (R45, R48): STATUS, MSTAT, VSTAT, FPCTL and TRACECTL. -/
def csrsToRestore : List Nat := [0x000, 0x051, 0x052, 0x053, 0x0C2]

/-- The words that a resumed member's save area holds for those CSRs (R408): none where a read fails. -/
def State.savedWords (s : State) (pl : Plan) (l : Nat) : List Nat → State × List (Nat × Word)
  | [] => (s, [])
  | i :: is =>
    let va := (s.ctxWord pl.ctx 2 + 2 ^ 32 * s.ctxWord pl.ctx 3 + l * 2 ^ 20 + 0xA2400 + 4 * i) % 2 ^ 52
    let r := s.busRead pl.ctx pl.asid va 4
    let t := r.1.savedWords pl l is
    (t.1, match r.2 with
      | some bs => (i, BitVec.ofNat 32 (natOfBytes bs)) :: t.2
      | none => t.2)

/-- The last checkpoint before CKIDX whose slot lies at an address (R452, R455). -/
def DebugCtx.checkpointAt (d : DebugCtx) (save : Nat) : Option Nat :=
  ((List.range d.ckidx.toNat).reverse.take 16).find? (fun k =>
    d.ckbase.toNat + d.slotOf k * 1536 * 2 ^ 20 == save)

/-- The interval that a launched logical core runs (R454): none for a fresh task; for one that is resumed from a
checkpoint, that checkpoint's. -/
def State.launchInterval (s : State) (pl : Plan) (l : Nat) : State :=
  let d := s.debugCtx pl.ctx
  if !s.lbResume then s.putDebugCtx pl.ctx { d with runs := tabPut d.runs l 0 }
  else match d.checkpointAt (s.ctxWord pl.ctx 2 + 2 ^ 32 * s.ctxWord pl.ctx 3) with
    | some k => s.putDebugCtx pl.ctx { d with runs := tabPut d.runs l (k + 1) }
    | none => s

/-- The launch bus writes logical core l on physical core p (R388 steps 3 to 5). -/
def State.launchMember (s : State) (pl : Plan) (l p : Nat) : State :=
  let sup := bits (s.ctxWord pl.ctx 0) 1 1 == 1
  let c := s.coreAt p
  let warm := c.warmFor pl.ctx
  let c := if c.warm = some (pl.ctx, s.recOvaddr) then c else c.loadOverlay sup (imgBody s.mgmt.firmware) pl.header pl.body
  let c := c.launchMem warm (s.windowWrites pl l)
  let c := c.launched (s.launchCsrs pl l) s.launchPc pl.ctx s.recOvaddr
  if s.lbResume then
    let r := s.reloadCounters pl l
    let w := r.1.savedWords pl l csrsToRestore
    (w.1.setCore p { c with saved := w.2, dbg := { c.dbg with ucnt := r.2.1, xord := r.2.2 } }).launchInterval pl l
  else (s.setCore p c).launchInterval pl l

/-- The gang of a launch (R405). -/
def State.launchGang (s : State) (pl : Plan) : Gang :=
  { origin := s.lbOrigin, size := s.recSize, ctx := pl.ctx, queue := pl.queue, ring := s.dist.lbidx.toNat
    key := s.dist.lbkey, task := BitVec.ofNat 32 (s.recField 0x0C 4), energy := s.recField 0x3A 2
    nopre := bits (s.recField 0x08 4) 25 25 == 1, flagged := false
    members := s.lbMembers, live := s.lbMembers.foldl setAdd [], ended := [], preempted := false, discarded := false }

/-- The view of a newly launched core (R57). -/
def State.launchView (s : State) : BitVec 64 := if s.inExchange then s.iris.phase + 1 else s.iris.phase

/-- The logical core whose state a physical core starts with: of a sliced gang that of the pair of supersteps which the
launch enters, else its own (R395; DEDUCED, log 49). -/
def State.startCore (s : State) (p : Nat) : Nat :=
  let mine := (List.range' s.lbOrigin s.recSize).filter (fun l => bits (s.mirrorEntry l) 10 0 == p)
  let k := bits (s.mirrorEntry (mine.headD s.lbOrigin)) 19 16
  let slot := if s.det then s.launchView.toNat / 2 % max 1 k else 0
  (mine.find? (fun l => bits (s.mirrorEntry l) 22 20 == slot)).getD (mine.headD s.lbOrigin)

/-- The exchanges since a context's first launch are counted from then on (R452). -/
def State.countExchanges (s : State) (c : Nat) : State :=
  let d := s.debugCtx c
  s.putDebugCtx c { d with begun := some (d.begun.getD 0) }

/-- The launch of a record that passes its checks (R388 steps 2 to 5). -/
def State.startLaunch (s : State) (pl : Plan) : State :=
  if s.notFree then s.lbAnswer 2
  else if !s.resident pl.granules then s.notResident pl.granules
  else
    let g := s.launchGang pl
    let s := g.live.foldl (fun s p => s.launchMember pl (s.startCore p) p) (s.countExchanges pl.ctx)
    { s with dist := { s.dist with
        lbresult := 0
        launch := some { gang := g, resume := s.lbResume, idx := s.dist.lbidx.toNat
                         endpc := pcOf (BitVec.ofNat 32 (s.recField 0x06 2)) } } }

/-- LBGO (R388, R412): a context that does not exist gives CTXDEAD. A launch bus that is busy takes no command, and none before stage 2
has released the cores (R464; DEDUCED, log 111). -/
def State.launchGo (s : State) : State :=
  if s.dist.launchBusy || !s.inStage 2 then s
  else match s.dirEntry s.lbQueue with
    | none => s.badRecord none
    | some qcb =>
      if !s.qcbOk qcb then s.badRecord none
      else if !s.recordOk then s.badRecord (some (s.lbQueue, qcb))
      else if !s.ctxLive (s.qCtx qcb) then s.lbAnswer 1
      else match s.readPlan s.lbQueue qcb with
        | (s, none) => s.badRecord (some (s.lbQueue, qcb))
        | (s, some pl) => s.startLaunch pl

/-- LBGO (R379, R388). -/
def execLbgo (s : State) : Out := s.request 1 (·.launchGo)

/-! ## Entering COMPUTE -/

/-- Members enter COMPUTE and join PMASK, and the place or resume record is written (R388 step 6, R405); with
it HEAD moves behind the record of a fresh task, and its energy counts as placed (R387, R400). The cores of a sliced gang
present the logical core of the pair that they enter (R395). -/
def State.enterLaunch (s : State) (l : Launch) : State :=
  let g := l.gang
  let s := { s with
    dist := { s.dist with
      launch := none, lbresult := 0, gangs := s.dist.gangs ++ [g], placed := s.dist.placed + 16 * g.energy }
    iris := { s.iris with pmask := g.live.foldl setAdd s.iris.pmask } }
  let v := s.launchView
  let t : TaskFacts := { origin := g.origin, ctx := g.ctx, endpc := l.endpc, preempting := false }
  let s := s.eachCore g.live (fun c =>
    { c.setView v with pst := .compute, task := some t, csr := { (c.setView v).csr with eallow := s.dist.eallowd } })
  let s := g.live.foldl (fun s p => s.presentSlot p v) s
  let s := s.logGang (if l.resume then 3 else 1) g g.members
  match (if l.resume then none else s.dirEntry g.queue) with
  | some qcb => s.passHead qcb l.idx
  | none => s

/-- LAUNCH_ENTER_COMPUTE (R388, R389), while the launch bus holds no END event (R378) and the cores work (R464). -/
def execLaunchEnterCompute (s : State) : Out :=
  onDevice s (fun s => if s.inStage 2 && s.dist.ended.isEmpty then s.dist.launch.map s.enterLaunch else none)

end Sys2Proof.Machine
end

