-- ==== Sys2Proof/Machine/Mgmt.lean ====
section
/-! DEFINITION. The management controller (17 R464 to R470): staged start, signed images, the mailbox and
attestation. -/

namespace Sys2Proof.Machine

/-! ## Signed images -/

/-- The parts of an image (R467). -/
def imgSvn (im : List Byte) : Nat := imgField im 0x08 4
def imgPk (im : List Byte) : List Byte := (im.drop 0x10).take 1952
def imgSig (im : List Byte) : List Byte := (im.drop 0x7B0).take 3309

/-- The header and the body of an image: what follows them is not of the image. -/
def imgWhole (im : List Byte) : List Byte := im.take (0x14A0 + imgLen im)

/-- The format of an image of a KIND (R467). -/
def imgFormat (kind : Nat) (im : List Byte) : Bool :=
  imgField im 0 4 == 0x57465358 && imgField im 4 2 == kind && imgField im 6 2 == 0 && imgField im 0x149D 3 == 0 &&
  decide (0x14A0 + imgLen im ≤ 0x400000) && decide (0x14A0 + imgLen im ≤ im.length)

/-- The owner digest where one is fused that is not zero (R467). -/
def Mgmt.owner (m : Mgmt) : Option (List Byte) := m.ownerDigest.filter (fun d => d.any (· != 0))

/-- The digest that an image's key must have (R467). -/
def Mgmt.keyDigest (m : Mgmt) (kind : Nat) : List Byte :=
  if kind = 2 then m.owner.getD Config.rootDigest else Config.rootDigest

/-- The fused counter of a KIND (R467). -/
def Mgmt.counter (m : Mgmt) (kind : Nat) : Nat := if kind = 2 then m.svnMicrocode else m.svnFirmware

/-- RESULT of MBSTAT for an image of a KIND (R467, R469): 0 OK, 1 BADSIG, 2 ROLLBACK, 3 BADFMT. Of several
failures the format comes first, then the key and the signature, then the counter (log 20). -/
def Mgmt.verify (m : Mgmt) (kind : Nat) (im : List Byte) : Nat :=
  if !imgFormat kind im then 3
  else if Config.shake256 (imgPk im) 64 ≠ m.keyDigest kind ∨
      !Config.mldsaVerify (imgPk im) (im.take 0x7B0 ++ imgBody im) (imgSig im) then 1
  else if imgSvn im < m.counter kind then 2
  else 0

/-! ## Staged start -/

/-- The device identity key that stage 0 derives from the fused secret (R470). -/
def identityKey : List Byte := Config.mldsaKey (Config.shake256 Config.uniqueSecret 32)

/-- RESET_RELEASE (R464, R470, R474): stage 0 begins and derives the identity key; the energy account is full, and it
accrues from this moment. -/
def execResetRelease (s : State) : Out :=
  onDevice s (fun s =>
    if !s.mgmt.inReset then none
    else some { s with
      mgmt := { s.mgmt with inReset := false, idKey := identityKey }
      power := { s.power with account := s.power.pburst * 1000, tlast := s.time } })

/-- The image that the boot ROM is to run: one that LOADFW or WRITEFW has verified, else the one in flash
(R468). -/
def Mgmt.candidate (m : Mgmt) : List Byte := if m.firmware = [] then m.flash else m.firmware

/-- STAGE_1_ENTRY (R464, R467, R468): the image is verified, or refused, and the boot ROM waits for recovery. -/
def Mgmt.enterStage1 (m : Mgmt) : Mgmt :=
  if m.verify 1 m.candidate = 0 then
    { m with stage := 1, err := false, recov := false, firmware := imgWhole m.candidate }
  else { m with err := true, recov := true, firmware := [] }

/-- STAGE_1_ENTRY (R464, R468). -/
def execStage1Entry (s : State) : Out :=
  onDevice s (fun s =>
    if s.mgmt.inReset ∨ s.mgmt.stage ≠ 0 then none else some { s with mgmt := s.mgmt.enterStage1 })

/-- A verified microcode is loaded (R464, R469): what it places in the harts' instruction memories is free (log 14). -/
def Distributor.loadUcode (d : Distributor) (body : List Byte) : Distributor :=
  { d with
    img := true
    ucode := body
    harts := Vector.ofFn (fun k : Fin 8 =>
      { d.harts[k] with imem := writeBytes [] 0 ((Config.hartImage body k.val).take 0x8000) }) }

/-- The microcode image of stage 2: the one that LOADUC has verified before it, else the default one of the firmware body, in
the container of R467 (log 14). -/
def Mgmt.microcode (m : Mgmt) : List Byte :=
  if m.ucImage = [] then Config.defaultMicrocode (imgBody m.firmware) else m.ucImage

/-- Stages 1 and 2 as the work in them goes (R464, R466, R467, R394): where self-test or training fails, the device stays in
stage 1 with ERR. Else stage 2 begins: the microcode is verified and loaded, or ERR is set; the mirror table is written, and
the fused counters of both images are raised where the stage completes. -/
def State.enterStage2 (s : State) : State :=
  let w := s.mgmt.work
  let m := { s.mgmt with repairs := w.repairs, disabled := w.disabled.foldl setAdd [] }
  if !(w.selfTest && w.training) then { s with mgmt := { m with err := true } }
  else
    let s := { s with dist := { s.dist with mirror := [], heldMirror := [] } }
    if !w.microcode || m.verify 2 m.microcode != 0 then { s with mgmt := { m with stage := 2, err := true } }
    else { s with
      mgmt := { m with
        stage := 2, err := false, ucImage := []
        svnFirmware := max m.svnFirmware (imgSvn m.firmware), svnMicrocode := max m.svnMicrocode (imgSvn m.microcode) }
      dist := s.dist.loadUcode (imgBody m.microcode) }

/-- STAGE_2_ENTRY (R464): what stage 1 works at ends; a stage that has failed goes no further. -/
def execStage2Entry (s : State) : Out :=
  onDevice s (fun s =>
    if s.mgmt.inReset ∨ s.mgmt.stage ≠ 1 ∨ s.mgmt.err then none else some s.enterStage2)

/-- RESET_ASSERTION (R464): every state takes its reset value. The flash and the fuses keep theirs, and so does
what is not the device: host memory, and what has left it. -/
def State.assertReset (s : State) : State :=
  { State.reset with
    turns := s.turns, nfree := s.nfree, out := s.out
    map := { MapUnits.reset with host := s.map.host }
    mgmt := { Mgmt.reset with
      work := s.mgmt.work, flash := s.mgmt.flash, ownerDigest := s.mgmt.ownerDigest, svnFirmware := s.mgmt.svnFirmware
      svnMicrocode := s.mgmt.svnMicrocode } }

/-- RESET_ASSERTION (R464). -/
def execResetAssertion (s : State) : Out := .next s.assertReset

/-! ## The mailbox -/

/-- A command ends with a RESULT (R469). -/
def Mgmt.answer (m : Mgmt) (r : Nat) : Mgmt := { m with mbBusy := none, mbResult := r }

/-- The work of the mailbox command of a code, which is under way (R469). -/
def onCommand (s : State) (code : Nat) (f : State → State) : Out :=
  onDevice s (fun s => if s.mgmt.mbBusy = some code then some (f s) else none)

/-- The bytes of MBBUF that an image in it takes (R467). -/
def Mgmt.image (m : Mgmt) : List Byte :=
  let n := 0x14A0 + readLE m.mbbuf 0x0C 4
  readBytes m.mbbuf 0 (if n ≤ 0x400000 then n else 0x14A0)

/-- LOADFW and WRITEFW (R468): a refused image changes nothing; one that is accepted is run, and by WRITEFW
stands in flash. -/
def Mgmt.loadFirmware (m : Mgmt) (program : Bool) : Mgmt :=
  let r := m.verify 1 m.image
  if r ≠ 0 then m.answer r
  else { m.answer 0 with
    firmware := m.image, recov := false, err := if m.stage = 0 then false else m.err
    flash := if program then m.image else m.flash }

/-- LOADFW (R468, R469). -/
def execLoadfw (s : State) : Out := onCommand s 1 (fun s => { s with mgmt := s.mgmt.loadFirmware false })

/-- WRITEFW (R468, R469). -/
def execWritefw (s : State) : Out := onCommand s 2 (fun s => { s with mgmt := s.mgmt.loadFirmware true })

/-- Some context is LIVE (R469). -/
def State.anyLive (s : State) : Bool := (List.range 64).any s.ctxLive

/-- LOADUC (R469): refused while the harts run or a context exists. The fused counter rises where stage 2 is completed; an
image that is loaded before is verified again by stage 2 (R467). -/
def State.loadMicrocode (s : State) : State :=
  let m := s.mgmt
  if s.dist.run ∨ s.anyLive then { s with mgmt := m.answer 4 }
  else
    let r := m.verify 2 m.image
    if r ≠ 0 then { s with mgmt := m.answer r }
    else { s with
      mgmt := if m.stage = 2 ∧ m.err = false then { m.answer 0 with svnMicrocode := max m.svnMicrocode (imgSvn m.image) }
        else { m.answer 0 with ucImage := m.image }
      dist := s.dist.loadUcode (imgBody m.image) }

/-- LOADUC (R469). -/
def execLoaduc (s : State) : Out := onCommand s 3 (·.loadMicrocode)

/-- SETOWNER (R469): the owner digest is fused once. -/
def Mgmt.setOwner (m : Mgmt) : Mgmt :=
  if m.ownerDigest.isSome then m.answer 5
  else { m.answer 0 with ownerDigest := some (readBytes m.mbbuf 0 64) }

/-- SETOWNER (R469). -/
def execSetowner (s : State) : Out := onCommand s 4 (fun s => { s with mgmt := s.mgmt.setOwner })

/-- The harts held in reset (R379): their registers take their reset values, and their memories and events stay. -/
def State.holdHarts (s : State) : State :=
  let back := fun (x : Hart) => { Hart.reset with imem := x.imem, dmem := x.dmem, events := x.events }
  { s with dist := { s.dist with run := false, harts := s.dist.harts.map back } }

/-- RESET of the mailbox (R469): all contexts are discarded as by a device fault, and the device is in stage
0 again, with its harts held in reset. -/
def State.mailboxReset (s : State) : State :=
  let s := s.deviceFault.holdHarts
  { s with
    mgmt := { s.mgmt.answer 0 with stage := 0, err := false, recov := false, firmware := [], ucImage := [], idKey := identityKey }
    dist := { s.dist with img := false } }

/-- MAILBOX_RESET (R469). -/
def execMailboxReset (s : State) : Out := onCommand s 5 (·.mailboxReset)

/-! ## Attestation (R470; message codes and their order are SPDM's own, log 13) -/

/-- Response codes of SPDM (log 13). -/
def spdmVersion : Nat := 0x04
def spdmCapabilities : Nat := 0x61
def spdmAlgorithms : Nat := 0x63
def spdmDigests : Nat := 0x01
def spdmCertificate : Nat := 0x02
def spdmChallengeAuth : Nat := 0x03
def spdmMeasurements : Nat := 0x60
def spdmError : Nat := 0x7F

/-- The number that stands for ML-DSA-65 among signature algorithms (log 13). -/
def mlDsa65 : Nat := 65

/-- What has been negotiated. -/
def State.putSpdm (s : State) (x : Spdm) : State := { s with mgmt := { s.mgmt with spdm := x } }

/-- An answer, where it was negotiated that far, else an error. -/
def State.spdmAnswer (s : State) (ok : Bool) (code index : Nat) (data : List Byte) : State :=
  if ok then s.emit (.spdm code index data) else s.emit (.spdm spdmError 0 [])

/-- An SPDM request through DOE (R465, R470): the device answers in every stage, and not while it is in reset. -/
def State.doe (s : State) (f : State → State) : Out := .next (if s.mgmt.inReset then s else f s)

/-- GET_VERSION (R470): version 1.4; a negotiation begins anew. -/
def execGetVersion (s : State) : Out :=
  s.doe (fun s => (s.putSpdm { version := true, caps := false, algs := false }).emit (.spdm spdmVersion 0 [0x14]))

/-- GET_CAPABILITIES (R470). -/
def execGetCapabilities (s : State) : Out :=
  let x := s.mgmt.spdm
  s.doe (fun s => (s.putSpdm { x with caps := x.version }).spdmAnswer x.version spdmCapabilities 0 [])

/-- NEGOTIATE_ALGORITHMS (R470): ML-DSA-65 is the only signature algorithm. -/
def execNegotiateAlgorithms (sigAlgs : List Nat) (s : State) : Out :=
  let x := s.mgmt.spdm
  let ok := x.caps && sigAlgs.contains mlDsa65
  s.doe (fun s => (s.putSpdm { x with algs := ok }).spdmAnswer ok spdmAlgorithms mlDsa65 [])

/-- GET_DIGESTS (R470). -/
def execGetDigests (s : State) : Out :=
  s.doe (fun s => s.spdmAnswer s.mgmt.spdm.algs spdmDigests 0 (Config.shake256 Config.certificates 64))

/-- GET_CERTIFICATE (R470): slot 0 holds the chain. -/
def execGetCertificate (slot : Nat) (s : State) : Out :=
  s.doe (fun s => s.spdmAnswer (s.mgmt.spdm.algs && slot == 0) spdmCertificate slot Config.certificates)

/-- CHALLENGE (R470): signed with the device identity key. -/
def execChallenge (nonce : List (BitVec 8)) (s : State) : Out :=
  let d := Config.shake256 Config.certificates 64
  s.doe (fun s => s.spdmAnswer s.mgmt.spdm.algs spdmChallengeAuth 0 (d ++ Config.mldsaSign s.mgmt.idKey (nonce ++ d)))

/-- The cluster sites of which every core is disabled (R428, R470). -/
def Mgmt.disabledSites (m : Mgmt) : List Nat :=
  (List.range 200).filter (fun j => (List.range' (8 * j) 8).all m.disabled.contains)

/-- What a measurement digests (R470). -/
def State.measured (s : State) (index : Nat) : List Byte :=
  let m := s.mgmt
  match index with
  | 1 => Config.bootRom
  | 2 => m.firmware
  | 3 => s.dist.ucode
  | 4 => Config.fuseBytes m.svnFirmware m.svnMicrocode (m.ownerDigest.getD [])
  | _ => Config.repairBytes m.repairs m.disabled m.disabledSites

/-- GET_MEASUREMENTS (R470): the digest of an index from 1 to 5 with a signature. One that meets a LOADUC under way is
answered after the load. -/
def execGetMeasurements (index : Nat) (nonce : List (BitVec 8)) (s : State) : Out :=
  s.doe (fun s =>
    let s := if s.mgmt.mbBusy = some 3 then s.loadMicrocode else s
    let d := Config.shake256 (s.measured index) 64
    s.spdmAnswer (s.mgmt.spdm.algs && decide (1 ≤ index ∧ index ≤ 5)) spdmMeasurements index
      (d ++ Config.mldsaSign s.mgmt.idKey (nonce ++ d)))

end Sys2Proof.Machine
end

