-- ==== Sys2Proof/Machine/Ports.lean ====
section
/-! DEFINITION. What the memory ports do by themselves: fills and write-backs (09 R292, R294, R295, 10 R331, 11
R346), shoot-downs (11 R360, R361), and errors in SRAM and registers (R344, R345). -/

namespace Sys2Proof.Machine

/-! ## Fills and write-backs -/

/-- Granule number k of those that a list of drains has left: the drain and the granule. -/
def drainAt : List Drain → Nat → Option (Drain × Nat)
  | [], _ => none
  | d :: t, k => if k < d.left.length then (d.left[k]?).map (fun j => (d, j)) else drainAt t (k - d.left.length)

/-- A granule of a drain is done; a drain with none left is gone. -/
def drainDone (ds : List Drain) (d : Drain) (j : Nat) (bad : NatSet) : List Drain :=
  (ds.map (fun x => if x = d then { x with left := x.left.erase j, bad := bad } else x)).filter (fun x => !x.left.isEmpty)

/-- The virtual address of granule j of a fill or write-back. -/
def Drain.va (d : Drain) (j : Nat) : Nat :=
  match d.pages.find? (fun m => decide (m.off ≤ 16 * j ∧ 16 * j < m.off + m.len)) with
  | some m => m.va + (16 * j - m.off)
  | none => 0

/-- A fill fails at granule j (R292, R352): the granules that remain are poisoned and set full, and MEMERR is
recorded in the channel's fault record. -/
def State.failFill (s : State) (d : Drain) (j : Nat) : State :=
  let s := d.left.foldl (fun s i =>
    if s.stgFull (d.slot / 16 + i) then s
    else (s.stgPut (d.slot / 16 + i) (s.freeGranule (d.slot + 16 * i)) [0, 1]).takeFree) s.takeFree
  let s := s.onCoreAt d.core (fun c => c.recordFault d.chan d.id kMemErr 0xFF (d.va j))
  { s with map := { s.map with fills := s.map.fills.erase d } }

/-- A fill brings granule j (R292, R346): the staging granule becomes full, poisoned where its bytes lie in a
listed block. -/
def State.fillGranule (s : State) (d : Drain) (j pa : Nat) (host : Bool) : State :=
  if !host && s.memError pa then s.failFill d j
  else
  let bad := if !host && s.gddrPoisoned pa 16 then [0, 1] else []
  let s := s.stgPut (d.slot / 16 + j) (s.physBytes host pa 16) bad
  { s with map := { s.map with fills := drainDone s.map.fills d j [] } }

/-- A fill may bring granule j: the exchange that named it has ended (R292), every write-back of the bytes named in it or
earlier has reached them (R295), and so has every other access of its core named in it or earlier (R331): its write-backs, and
the fills of earlier exchanges. A granule of an SO or RC page follows the other acquires of its core in its exchange as
well (R322, R326); of two acquires the one accepted first goes first (DESIGN CHOICE, log 122). -/
def State.fillDue (s : State) (d : Drain) (j pa : Nat) (host : Bool) : Bool :=
  let rivals := if d.acquires then s.map.fills.takeWhile (· != d) else s.map.fills
  s.iris.phase != d.phase &&
  !drainsMeet (s.map.backs.filter (fun b => decide (b.phase.toNat ≤ d.phase.toNat))) host pa 16 &&
  !s.map.backs.any (fun b => b.core == d.core && decide (b.phase.toNat ≤ d.phase.toNat)) &&
  !s.map.fills.any (fun f => f.core == d.core && decide (f.phase.toNat < d.phase.toNat)) &&
  (d.kindAt j == some 2 || !rivals.any (fun f => f.core == d.core && f.phase == d.phase && f.acquires))

/-- FILL_GRANULE_ARRIVES (R292): granule k of those that fills have left. -/
def execFillGranuleArrives (k : Nat) (s : State) : Out :=
  onDevice s (fun s =>
    match drainAt s.map.fills k with
    | some (d, j) =>
      (match d.place j with
       | some (pa, host) => if s.fillDue d j pa host then some (s.fillGranule d j pa host) else none
       | none => none)
    | none => none)

/-- A block enters the poison list of its port; where the list is full, the writing context faults (R346). -/
def State.listBlock (s : State) (b ctx core : Nat) : State :=
  if setHas s.map.gddrPoison b then s
  else if s.poisonCount (portOf (b * 64)) < 4096 then
    { s with map := { s.map with gddrPoison := setAdd s.map.gddrPoison b } }
  else s.faultOpen ctx core

/-- A write-back has covered the whole of a block with clean words (R346): each of its granules is one of the
drain's, granule j the last of them to go. -/
def Drain.covers (d : Drain) (b j : Nat) : Bool :=
  let n := d.pages.foldl (fun m p => max m ((p.off + p.len) / 16)) 0
  let at' := fun (a : Nat) (js : List Nat) => js.any (fun i => d.place i == some (a, false))
  !setHas d.bad b &&
  [0, 1, 2, 3].all (fun i => at' (64 * b + 16 * i) (List.range n) &&
    !at' (64 * b + 16 * i) (d.left.filter (· != j)))

/-- A write-back of granule j reaches memory (R294, R346): its staging granule becomes empty. -/
def State.drainGranule (s : State) (d : Drain) (j pa : Nat) (host : Bool) : State :=
  let g := d.slot / 16 + j
  let bs := readBytes s.map.staging (16 * g) 16
  let poisoned := !(s.stgBad g).isEmpty
  let b := pa / 64
  let bad := if poisoned && !host then setAdd d.bad b else d.bad
  let s := (s.physStore host pa bs).stgMet (16 * g) 16
  let s := { s with map := { s.map with
    backs := drainDone s.map.backs d j bad
    stgFull := setDel s.map.stgFull g } }
  if host then (if poisoned then s.emit (.write 0 pa bs true) else s)
  else if poisoned then s.listBlock b d.ctx d.core
  else if d.covers b j then { s with map := { s.map with gddrPoison := setDel s.map.gddrPoison b } }
  else s

/-- A write-back may reach memory: its exchange has ended, and no fill of an earlier exchange has still to
read the bytes (R294, R331). -/
def State.drainDue (s : State) (d : Drain) (pa : Nat) (host : Bool) : Bool :=
  s.iris.phase != d.phase &&
  !drainsMeet (s.map.fills.filter (fun f => decide (f.phase.toNat < d.phase.toNat))) host pa 16

/-- WRITE_BACK_DRAIN (R294): granule k of those that write-backs have left. -/
def execWriteBackDrain (k : Nat) (s : State) : Out :=
  onDevice s (fun s =>
    match drainAt s.map.backs k with
    | some (d, j) =>
      (match d.place j with
       | some (pa, host) => if s.drainDue d pa host then some (s.drainGranule d j pa host) else none
       | none => none)
    | none => none)

/-! ## Shoot-downs -/

/-- Remove the TLB entries that a test picks, their counts written (R356, R361). -/
def State.dropTlb (s : State) (f : TlbEntry → Bool) : State :=
  let s := (s.map.tlb.filter f).foldl (fun s t => s.flushCount t) s
  { s with map := { s.map with tlb := s.map.tlb.filter (fun t => !f t) } }

/-- Write the counts of every entry and clear them (R356). -/
def State.flushAll (s : State) : State :=
  let s := s.map.tlb.foldl (fun s t => s.flushCount t) s
  { s with map := { s.map with tlb := s.map.tlb.map (fun t => { t with count := 0 }) } }

/-- SDVA without its ignored bits (R360). -/
def State.shootVa (s : State) : Nat := bits s.map.sdva.toNat 51 16 * 0x10000

/-- The entries that a command of kind 0 to 3 removes (R357, R360). -/
def State.shootHits (s : State) (kind : Nat) (force : Bool) (asid : Nat) (t : TlbEntry) : Bool :=
  let lo := s.shootVa
  let hi := lo + 0x10000 * max 1 s.map.sdlen.toNat
  match kind with
  | 0 => t.asid == asid && decide (t.va ≤ lo ∧ lo < t.va + t.size)
  | 1 => t.asid == asid && decide (t.va < hi ∧ lo < t.va + t.size) && (force || !t.anchor)
  | 2 => t.asid == asid && (force || !t.anchor)
  | _ => force || !t.anchor

/-- What a command removes or flushes in the map units (R360, R361). -/
def State.shootUnits (s : State) (kind : Nat) (force : Bool) (asid : Nat) : State :=
  if kind = 4 then s.flushAll
  else
    let s := s.dropTlb (s.shootHits kind force asid)
    if kind = 2 then
      { s with map := { s.map with asidCache := s.map.asidCache.filter (fun x => x.2.1 != asid) } }
    else if kind = 3 then { s with map := { s.map with asidCache := [], atbNow := s.map.atb } }
    else s

/-- The XSTs under way, which have translated the ranges that they will write back (R294, R361). -/
def State.begunStores (s : State) : List (Nat × Nat × Word) :=
  s.cores.flatMap (fun c => c.xfers.filterMap (fun y =>
    match y.entry.instr with
    | .xst .. => some (c.phys, y.entry.chan, y.entry.xid)
    | _ => none))

/-- A write of SDCMD with a kind of 0 to 4 (R360, R361): refused while a command is under way. -/
def State.shoot (s : State) (kind : Nat) (force : Bool) (asid : Nat) : State :=
  if s.map.sdBusy then { s with map := { s.map with sdRej := true } }
  else
    let before := s.map.fills ++ s.map.backs
    let stores := s.begunStores
    let s := s.shootUnits kind force asid
    { s with map := { s.map with
        sdBusy := true, sdDone := false, sdDrained := false, sdBefore := before, sdStores := stores
        sdWait := if s.iris.phase.toNat % 2 = 1 then some s.iris.phase.toNat else none } }

/-- A write of SDCMD (R360): reserved bits and kinds 5 to 7 are rejected. -/
def State.writeSdcmd (s : State) (v : Nat) : State :=
  if 4 < bits v 2 0 ∨ bits v 15 4 ≠ 0 ∨ bits v 31 28 ≠ 0 then { s with map := { s.map with sdRej := true } }
  else s.shoot (bits v 2 0) (bits v 3 3 == 1) (bits v 27 16)

/-- SHOOTDOWN_PAGE (R360). -/
def execShootdownPage (asid : BitVec 12) (s : State) : Out := s.request 1 (fun s => s.shoot 0 false asid.toNat)

/-- SHOOTDOWN_RANGE (R360). -/
def execShootdownRange (force : Bool) (asid : BitVec 12) (s : State) : Out := s.request 1 (fun s => s.shoot 1 force asid.toNat)

/-- SHOOTDOWN_ASID (R360). -/
def execShootdownAsid (force : Bool) (asid : BitVec 12) (s : State) : Out := s.request 1 (fun s => s.shoot 2 force asid.toNat)

/-- SHOOTDOWN_ALL (R360). -/
def execShootdownAll (force : Bool) (s : State) : Out := s.request 1 (fun s => s.shoot 3 force 0)

/-- COUNTER_FLUSH (R360). -/
def execCounterFlush (s : State) : Out := s.request 1 (fun s => s.shoot 4 false 0)

/-- SHOOTDOWN_DONE (R361): the exchange that ran when the map units finished has ended. -/
def execShootdownDone (s : State) : Out :=
  onDevice s (fun s =>
    if s.map.sdBusy ∧ s.map.sdWait ≠ some s.iris.phase.toNat then
      some { s with map := { s.map with
        sdBusy := false, sdDone := true, sdWait := none, sdSeq := s.map.sdSeq + 1 } }
    else none)

/-- Two drains stand for the same transfer. -/
def Drain.same (a b : Drain) : Bool :=
  a.core == b.core && a.chan == b.chan && a.id == b.id && a.phase == b.phase && a.slot == b.slot

/-- SHOOTDOWN_DRAINED (R361): what had been accepted before the command has been performed. -/
def execShootdownDrained (s : State) : Out :=
  onDevice s (fun s =>
    if s.map.sdDone && !s.map.sdDrained &&
        !s.map.sdBefore.any (fun d => (s.map.fills ++ s.map.backs).any (·.same d)) &&
        !s.map.sdStores.any (fun k => ((s.coreAt k.1).xfer k.2.1 k.2.2).isSome) then
      some { s with map := { s.map with sdDrained := true, sdBefore := [], sdStores := [] } }
    else none)

/-! ## Errors -/

/-- Count a corrected error for the management controller (R344). -/
def State.countCorrected (s : State) : State := { s with mgmt := { s.mgmt with corrected := s.mgmt.corrected + 1 } }

/-- SRAM_BIT_ERROR (R344, R345): one bit in error is corrected and counted; another error is met by the next read of the
word, which finds it poisoned: in a core the word is poisoned at once, in staging that read decides the kind (R286). -/
def execSramBitError (site : SramSite) (s : State) : Out :=
  match site with
  | .coreLocal p a ok => onCore s p (fun c s =>
      if ok then some s.countCorrected
      else if localMapped a then some (s.setCore p { c with poison := setAdd c.poison (a / 8) }) else none)
  | .coreImem p a ok => onCore s p (fun c s =>
      if ok then some s.countCorrected
      else if a < 0x10000 then some (s.setCore p { c with imemPoison := setAdd c.imemPoison (a / 8) }) else none)
  | .staging a ok => onDevice s (fun s =>
      if ok then some s.countCorrected
      else if a < 0x8000000 then some { s with map := { s.map with
        stgPoison := setAdd s.map.stgPoison (a / 8), stgErr := setAdd s.map.stgErr (a / 8) } }
      else none)

/-- REGISTER_PARITY_ERROR (R344). -/
def execRegisterParityError (p : Nat) (s : State) : Out := onCore s p (fun _ s => some (s.faultCore p))

end Sys2Proof.Machine
end

