-- ==== Sys2Proof/Machine/Power.lean ====
section
/-! DEFINITION. The power controller (17 R471 to R475): throttling requests, limits, and the droop alarms with the
alarm spans of the matrix engines (08 R253). -/

namespace Sys2Proof.Machine

/-! ## Requests -/

/-! ## Frames -/

/-- Pulse i of a frame is swallowed where SWCTL.NSW is n (R373). -/
def swallowed (n i : Nat) : Bool := decide (i * n / 16 < (i + 1) * n / 16)

/-- A frame of 16 pulses ends (R373, R472): a frame of the current request has passed, and SWCTL.NSW takes the greatest
request. -/
def Power.endFrame (w : Power) : Power :=
  let w := { w with pulse := 0, currentFrames := w.currentFrames - 1 }
  { w with nsw := w.request }

/-- A pulse of the 850 MHz clock (R373): the power controller after it, and whether it is a core cycle. -/
def Power.passPulse (w : Power) : Power × Bool :=
  (if w.pulse = 15 then w.endFrame else { w with pulse := w.pulse + 1 }, !swallowed w.nsw w.pulse)

/-- The power request after a sample (R472): mw is the mean package power of the last 100 µs in mW. NSW is at
most 12 (R375). -/
def Power.sample (w : Power) (mw : Nat) : Power :=
  let req := if w.plim * 1000 < mw then min 12 (w.reqPower + 1)
    else if mw * 100 < w.plim * 1000 * 95 then w.reqPower - 1 else w.reqPower
  { w with reqPower := req }

/-- POWER_SAMPLE (R472). -/
def execPowerSample (mw : Nat) (s : State) : Out := .next { s with power := s.power.sample mw }

/-- The peak current of a rail in A (R471). -/
def railPeak : Rail → Nat
  | .vcore => 6000
  | .vsram => 400
  | .vio => 60
  | .vaux => 10

/-- RAIL_OVERCURRENT (R472): a rail carries so many A, and has for so many µs. Above its peak it asks for 8 during 1,024
frames, which begin with the next; above 110 % of it for 10 µs is a device fault. -/
def execRailOvercurrent (rail : Rail) (current : RailCurrent) (s : State) : Out :=
  if current.amps ≤ railPeak rail then .next s
  else
    let s := { s with power := { s.power with reqCurrent := 8, currentFrames := 1025 } }
    .next (if 11 * railPeak rail < 10 * current.amps ∧ 10 ≤ current.us then s.deviceFault else s)

/-- OVERCURRENT_REQUEST_END (R472): the frames of the current request have passed. -/
def execOvercurrentRequestEnd (s : State) : Out :=
  .next (if s.power.currentFrames = 0 then { s with power := { s.power with reqCurrent := 0 } } else s)

/-- THERMAL_LIMIT (R472, R475): the hottest junction reads degc. From 100 °C on it asks for 12; at 115 °C the
device faults, and the core domain's clocks stop. -/
def execThermalLimit (degc : Nat) (s : State) : Out :=
  let s := { s with power := { s.power with tj := min 255 degc, reqThermal := if 100 ≤ degc then 12 else 0 } }
  .next (if 115 ≤ degc then State.deviceFault { s with power := { s.power with coreClock := false } } else s)

/-! ## Droop alarms -/

/-- The core cycles that an alarm span lasts after its alarm (R253). -/
def spanTail : Nat := 4096

/-- The alarm of a core asserts (R253): outside a span it begins one and sets HALFS. -/
def Core.alarmOn (c : Core) : Core :=
  let fresh := !c.matrix.alarm && c.matrix.span == 0
  { c with matrix := { c.matrix with alarm := true, span := 0 }
           csr := if fresh then { c.csr with mstat := c.csr.mstat ||| 2 } else c.csr }

/-- DROOP_ALARM (R253, R473) at a core with its VCORE: it asserts below DROOP. -/
def execDroopAlarm (v : CoreVoltage) (s : State) : Out :=
  onCore s v.core (fun c s =>
    if c.matrix.alarm || decide (s.power.droop ≤ v.mv) then none
    else some { s.setCore v.core c.alarmOn with power := { s.power with ndroop := (s.power.ndroop + 1) % 2 ^ 16 } })

/-- DROOP_ALARM_DEASSERT (R253, R473) at a core with its VCORE, again DROOP or more: the span lasts 4,096 core cycles
more. -/
def execDroopAlarmDeassert (v : CoreVoltage) (s : State) : Out :=
  onCore s v.core (fun c s =>
    if c.matrix.alarm && decide (s.power.droop ≤ v.mv) then
      some (s.setCore v.core { c with matrix := { c.matrix with alarm := false, span := spanTail + 1 } })
    else none)

/-- HALF_ARRAY_SPAN_END (R253) at core p: the last of those core cycles has passed. -/
def execHalfArraySpanEnd (p : Nat) (s : State) : Out :=
  onCore s p (fun c s =>
    if !c.matrix.alarm && c.matrix.span == 1 then some (s.setCore p { c with matrix := { c.matrix with span := 0 } })
    else none)

end Sys2Proof.Machine
end

