-- ==== Sys2Proof/Machine/Registers.lean ====
section
/-! DEFINITION. The memory-mapped registers, block by block, as words of 32 bits (11 R350, R360, 12 R374, R375, 13
R379, R381, R394, R403, 14 R413, 15 R438, R439, 16 R463, 17 R466, R469, R475). An offset that no table names
reads 0 and discards writes. -/

namespace Sys2Proof.Machine

/-- A 64-bit register with half i replaced. -/
def putHalf (x : BitVec 64) (i : Nat) (v : Word) : BitVec 64 :=
  BitVec.ofNat 64 (if i = 0 then v.toNat + 2 ^ 32 * half x 1 else half x 0 + 2 ^ 32 * v.toNat)

/-- The place of an offset in a 64-bit register that begins at `base`: which half, if any. -/
def halfAt (base off : Nat) : Option Nat := if off = base then some 0 else if off = base + 4 then some 1 else none

/-! ## Map units and translation control -/

/-- A write to a translation control register (R360). -/
def State.xlateWrite (s : State) (off : Nat) (v : Word) : State :=
  match off with
  | 0x00 => { s with map := { s.map with atb := putHalf s.map.atb 0 v } }
  | 0x04 => { s with map := { s.map with atb := putHalf s.map.atb 1 v } }
  | 0x08 => { s with map := { s.map with sdva := putHalf s.map.sdva 0 v } }
  | 0x0C => { s with map := { s.map with sdva := putHalf s.map.sdva 1 v } }
  | 0x10 => { s with map := { s.map with sdlen := v } }
  | 0x14 => s.writeSdcmd v.toNat
  | 0x18 => if wbit v 3 then { s with map := { s.map with sdRej := false } } else s
  | _ => s

/-! ## Codec engines -/

/-- A configuration register of a codec engine that is not enabled (R413, R414); a decoder has neither CRATE
nor CGOP. -/
def Codec.configure (x : Codec) (enc : Bool) (off : Nat) (v : Word) : Codec :=
  match off with
  | 0x04 => { x with cfg := v &&& 0x7FFFFF }
  | 0x08 => { x with size := v }
  | 0x0C => if enc then { x with rate := v } else x
  | 0x10 => if enc then { x with gop := v } else x
  | 0x14 => { x with cctx := v &&& 0x1FFFFFFF }
  | 0x18 => { x with ref := putHalf x.ref 0 v }
  | 0x1C => { x with ref := putHalf x.ref 1 v }
  | 0x20 => { x with refsz := v }
  | 0x28 => { x with ring := putHalf x.ring 0 v }
  | 0x2C => { x with ring := putHalf x.ring 1 v }
  | _ => x

/-- A write to a codec register (R413, R415): while EN = 1 a configuration write is discarded and sets REJ. -/
def State.codecRegWrite (s : State) (e off : Nat) (v : Word) : State :=
  let x := s.codec e
  if off = 0x00 then (if wbit v 0 then s.enableCodec e else s.disableCodec e)
  else if off = 0x30 then (if wbit v 1 then s.putCodec e { x with rej := false } else s)
  else if off < 0x30 ∧ off ≠ 0x24 then
    s.putCodec e (if x.en then { x with rej := true } else x.configure (decide (e < 16)) off v)
  else s

/-! ## The work distributor -/

/-- A write to a scoreboard's register (R403); SBMASK's reserved bits stay 0. -/
def State.boardWrite (s : State) (n off : Nat) (v : Word) : State :=
  let b := s.board n
  match off with
  | 0x00 => s.writeSbcfg n v
  | 0x08 => (s.putBoard n { b with mask := putHalf b.mask 0 v }).evalBoard n
  | 0x0C => (s.putBoard n { b with mask := putHalf b.mask 1 (v &&& 0x3FFFF) }).evalBoard n
  | 0x10 => s.retireTile n v
  | 0x14 => s.passBoard n
  | _ => s

/-- Replace an atomic window. -/
def State.putAtWindow (s : State) (h : Nat) (w : AtWindow) : State :=
  { s with dist := { s.dist with windows := s.dist.windows.setIfInBounds h w } }

/-- A window's atomic on a 4-aligned word of device memory (R299, R346, R380): a code that is not legal
performs nothing and sets ERR, and so does an address where no word of device memory can be read (log 19). The
old value is read, and CASOK tells the outcome of CAS. ATCMD carries no format: FMIN and FMAX compare INT32 (DESIGN CHOICE,
log 99). -/
def State.windowAtomic (s : State) (h : Nat) (v : Word) : State :=
  let w := s.atWindow h
  let o := bits v.toNat 3 0
  let a := w.addr.toNat / 4 * 4
  if 8 < o ∨ 4 < bits v.toNat 6 4 ∨ gddrSize < a + 4 ∨ s.gddrPoisoned a 4 then
    s.putAtWindow h { w with err := true }
  else
    let old := s.gddrLE a 4
    let r := atomOp o (if o = 1 then .fp32 else .int32) old w.a.toNat w.b.toNat
    let s := if o = 5 ∧ r.2 = 0 then s else s.gddrPut a 4 r.1
    s.putAtWindow h { w with res := BitVec.ofNat 32 old, casok := r.2 == 1, err := false }

/-- A write to an atomic window's register (R380). -/
def State.windowWrite (s : State) (h off : Nat) (v : Word) : State :=
  let w := s.atWindow h
  match off with
  | 0x00 => s.putAtWindow h { w with addr := putHalf w.addr 0 v }
  | 0x04 => s.putAtWindow h { w with addr := putHalf w.addr 1 v }
  | 0x08 => s.putAtWindow h { w with a := v }
  | 0x0C => s.putAtWindow h { w with b := v }
  | 0x10 => s.windowAtomic h v
  | _ => s

/-- The bits of word w of a context entry that are stored (R381). -/
def ctxMask (w : Nat) : Nat :=
  if w = 0 then 0xFFFF0007 else if w = 3 then 0x000FFFFF else 0xFFFFFFFF

/-- Write word w of a context entry (R381). -/
def State.ctxWrite (s : State) (c w : Nat) (v : Word) : State :=
  let e := (s.dist.contexts[c]?.getD 0).toNat
  let old := e / 2 ^ (32 * w) % 2 ^ 32
  let new := Nat.land v.toNat (ctxMask w)
  { s with dist := { s.dist with
      contexts := s.dist.contexts.setIfInBounds c (BitVec.ofNat 128 (e - old * 2 ^ (32 * w) + new * 2 ^ (32 * w))) } }

/-- DCTL.RUN (R379, R464): the harts run from stage 2 on, and the microcode does what has waited for them (log 111). -/
def State.runHarts (s : State) (b : Bool) : State :=
  if s.mgmt.stage < 2 then s
  else if b then State.doChores { s with dist := { s.dist with run := true } } else s.holdHarts

/-- A write to a control register of the distributor (R379). DCTL and CTXKILL take writes from the host
only. -/
def State.distControlWrite (s : State) (host : Bool) (off : Nat) (v : Word) : State :=
  let d := s.dist
  let put := fun (d' : Distributor) => ({ s with dist := d' } : State)
  match off with
  | 0x0000 => if host then s.runHarts (wbit v 0) else s
  | 0x0004 => put { d with pbad := d.pbad && !wbit v 1, dlbad := d.dlbad && !wbit v 2, gbad := d.gbad && !wbit v 3 }
  | 0x0008 => put { d with qdir := putHalf d.qdir 0 v }
  | 0x000C => put { d with qdir := putHalf d.qdir 1 v }
  | 0x0010 => s.ringBell (v.toNat % 4096)
  | 0x0018 => put { d with grun := v }
  | 0x001C => s.deliverSignal (d.grun.toNat + 2 ^ 32 * v.toNat) 0
  | 0x0020 => if host then s.killContext (v.toNat % 64) else s
  | 0x0028 => s.writePreq v
  | 0x0038 => put { d with dlbase := putHalf d.dlbase 0 v }
  | 0x003C => put { d with dlbase := putHalf d.dlbase 1 v }
  | 0x0040 => s.sizeLog v
  | 0x0050 => put { d with dlw := d.dlw.setIfInBounds 0 v }
  | 0x0054 => put { d with dlw := d.dlw.setIfInBounds 1 v }
  | 0x0058 => put { d with dlw := d.dlw.setIfInBounds 2 v }
  | 0x005C => s.commitLog v
  | 0x0100 => put { d with sskey := putHalf d.sskey 0 v }
  | 0x0104 => put { d with sskey := putHalf d.sskey 1 v }
  | 0x0108 => s.sorterInsert v
  | 0x011C => s.sorterPop
  | 0x0120 => s.sorterDelete v
  | 0x0124 => put { d with ssFull := d.ssFull && !wbit v 16 }
  | 0x0200 => put { d with plshape := some (v &&& 0x1FFFF) }
  | 0x0300 => put { d with lbrec := putHalf d.lbrec 0 v }
  | 0x0304 => put { d with lbrec := putHalf d.lbrec 1 v }
  | 0x0308 => put { d with lbarg := v &&& 0x0FFF0FFF }
  | 0x030C => s.launchGo
  | 0x0314 => put { d with lbidx := v }
  | 0x0318 => put { d with lbkey := putHalf d.lbkey 0 v }
  | 0x031C => put { d with lbkey := putHalf d.lbkey 1 v }
  | _ => s

/-- A write to a word of the distributor (R379). -/
def State.distWrite (s : State) (host : Bool) (off : Nat) (v : Word) : State :=
  if off < 0x400 then s.distControlWrite host off v
  else if off < 0x500 then { s with dist := { s.dist with lbparam := writeLE s.dist.lbparam (off - 0x400) 4 v.toNat } }
  else if 0x1000 ≤ off ∧ off < 0x1400 then s.boardWrite ((off - 0x1000) / 0x40) (off % 0x40) v
  else if 0x2000 ≤ off ∧ off < 0x2100 then s.windowWrite ((off - 0x2000) / 0x20) (off % 0x20) v
  else if 0x3000 ≤ off ∧ off < 0x3400 then s.ctxWrite ((off - 0x3000) / 16) (off % 16 / 4) v
  else if 0x10000 ≤ off ∧ off < 0x10000 + 4 * 1536 then s.writeMirror ((off - 0x10000) / 4) v
  else s

/-! ## The Iris -/

/-- A write to a register of the Iris (R374): CTO, XTO, WDOG and SLIM apply from the next advance. -/
def Iris.write (i : Iris) (off : Nat) (v : Word) : Iris :=
  match off with
  | 0x000 => i.writeIctl v
  | 0x010 => { i with cto := v }
  | 0x014 => { i with xto := v }
  | 0x018 => { i with wdog := v }
  | 0x01C => { i with slim := v &&& 0xFF }
  | 0x020 => { i with rej := i.rej && !wbit v 4 }
  | _ => i

/-! ## The peer reduction unit -/

/-- The writable bits of word w of a block descriptor (R439). -/
def blockMask (w : Nat) : Nat :=
  match w with
  | 0 => 0xFFFC
  | 1 => 0xFFFFFF
  | 2 => 0x3FFFFFF
  | 3 => 0x7FFFFFF
  | 4 => 0xFFFF
  | 5 => 0x1FF
  | 6 => 0x3F
  | _ => 0

/-- A write to a word of a block's descriptor (R439, R440): ARM and CANCEL act on the descriptor as it then
stands, CANCEL last (log 19). -/
def State.blockWrite (s : State) (b w : Nat) (v : Word) : State :=
  let x := s.block b
  let s := s.putBlock b { x with words := x.words.setIfInBounds w (v &&& BitVec.ofNat 32 (blockMask w)) }
  let s := if w = 0 ∧ wbit v 16 then s.armBlock b else s
  if w = 0 ∧ wbit v 17 then s.cancelBlock b else s

/-- A write to a register of the peer reduction unit (R439). -/
def State.peerWrite (s : State) (off : Nat) (v : Word) : State :=
  let u := s.peer
  if off = 0 then { s with peer := { u with myrank := v &&& 0x1FF } }
  else if off = 4 then { s with peer := { u with rej := u.rej && !wbit v 0 } }
  else if 0x1000 ≤ off ∧ off < 0x2000 then
    let k := (off - 0x1000) / 16
    let base := BitVec.ofNat 64 (tabGet u.rankBase k)
    match off % 16 with
    | 0 => { s with peer := { u with rankPort := tabPut u.rankPort k (v.toNat % 16) } }
    | 8 => { s with peer := { u with rankBase := tabPut u.rankBase k (putHalf base 0 v).toNat } }
    | 12 => { s with peer := { u with rankBase := tabPut u.rankBase k (putHalf base 1 v).toNat } }
    | _ => s
  else if 0x4000 ≤ off ∧ off < 0x24000 ∧ off % 32 < 28 then s.blockWrite ((off - 0x4000) / 32) (off % 32 / 4) v
  else s

/-! ## Management, power, ports, debug -/

/-- A write to MBCMD (R469): a command begins, other codes are refused, and a write while one is under way is discarded. -/
def Mgmt.command (m : Mgmt) (v : Nat) : Mgmt :=
  let k := bits v 3 0
  if m.mbBusy.isSome then { m with mbRej := true }
  else if 1 ≤ k ∧ k ≤ 5 then { m with mbBusy := some k }
  else { m with mbResult := 4 }

/-- A write to a power register (R475). -/
def Power.write (w : Power) (off : Nat) (v : Word) : Power :=
  match off with
  | 0x00 => { w with plim := min 3000 (bits v.toNat 11 0) }
  | 0x04 => { w with pburst := v.toNat }
  | 0x08 => { w with droop := bits v.toNat 9 0 }
  | _ => w

/-- Replace a port. -/
def State.putPort (s : State) (p : Nat) (x : PciePort) : State := { s with ports := s.ports.setIfInBounds p x }

/-- A write to a register of port p (R438): bits [31:0] of VFGBASE are ignored. -/
def State.portWrite (s : State) (p off : Nat) (v : Word) : State :=
  if off = 4 then s.putPort p { s.port p with cfg := v &&& 7 }
  else if p = 0 ∧ 0x108 ≤ off ∧ off < 0x300 ∧ off % 8 = 4 then
    { s with vfBase := s.vfBase.setIfInBounds ((off - 0x100) / 8) (putHalf 0 1 v) }
  else s

/-- A write to a chip-wide register of the debug unit (R463). -/
def State.debugUnitWrite (s : State) (off : Nat) (v : Word) : State :=
  let d := s.debugUnit
  let put := fun (d' : DebugUnit) => ({ s with debugUnit := d' } : State)
  match off with
  | 0x000 => s.writeDsctx v
  | 0x008 => put { d with iv := v }
  | 0x00C => put { d with core := v &&& 0x7FF }
  | 0x010 => put { d with cnt := putHalf d.cnt 0 v }
  | 0x014 => put { d with cnt := putHalf d.cnt 1 v }
  | 0x018 => s.writeDcmd v
  | 0x01C => put { d with div := d.div && !wbit v 0, slf := d.slf && !wbit v 1 }
  | _ => s

/-- A write to a register of a context's block (R463). -/
def State.debugCtxWrite (s : State) (c off : Nat) (v : Word) : State :=
  let d := s.debugCtx c
  match off with
  | 0x00 => s.putDebugCtx c { d with ckbase := putHalf d.ckbase 0 v }
  | 0x04 => s.putDebugCtx c { d with ckbase := putHalf d.ckbase 1 v }
  | 0x08 => s.putDebugCtx c { d with ckctl := v &&& 0xFFFFF }
  | 0x10 => s.putDebugCtx c { d with slbase := putHalf d.slbase 0 v }
  | 0x14 => s.putDebugCtx c { d with slbase := putHalf d.slbase 1 v }
  | 0x18 => s.setMode c (if bits v.toNat 1 0 = 3 then 0 else bits v.toNat 1 0)
  | _ => s

/-- A write to a register of the debug unit (R463). -/
def State.debugWrite (s : State) (off : Nat) (v : Word) : State :=
  if off < 0x1000 then s.debugUnitWrite off v
  else if off < 0x1800 then s.debugCtxWrite ((off - 0x1000) / 0x20) (off % 0x20) v
  else s

/-- A write to a word of that block. -/
def State.mgmtWrite (s : State) (off : Nat) (v : Word) : State :=
  if off = 0x10 then { s with mgmt := s.mgmt.command v.toNat }
  else if off = 0x14 then { s with mgmt := { s.mgmt with mbRej := s.mgmt.mbRej && !wbit v 4 } }
  else if 0x1000 ≤ off ∧ off < 0x2000 then { s with power := s.power.write (off - 0x1000) v }
  else if 0x100000 ≤ off ∧ off < 0x105000 then s.portWrite ((off - 0x100000) / 0x1000) (off % 0x1000) v
  else if 0x200000 ≤ off ∧ off < 0x202000 then s.debugWrite (off - 0x200000) v
  else if 0x400000 ≤ off ∧ off < 0x800000 then
    { s with mgmt := if s.mgmt.mbBusy.isSome then { s.mgmt with mbRej := true }
                     else { s.mgmt with mbbuf := writeLE s.mgmt.mbbuf (off - 0x400000) 4 v.toNat } }
  else s

/-! ## Any block -/

/-- A write to a word of a block of registers, by the host or a hart. -/
def State.regWrite (s : State) (host : Bool) (b : RegBlock) (off : Nat) (v : Word) : State :=
  match b with
  | .mapUnits =>
    (match stgRngAt off with
     | some k => { s with map := { s.map with stgRng := tabPut s.map.stgRng k (v.toNat % 2 ^ 16) } }
     | none => s)
  | .xlate => s.xlateWrite off v
  | .codecs =>
    (match codecAt off with
     | some e => s.codecRegWrite e (off % 0x10000) v
     | none => s)
  | .dist => s.distWrite host off v
  | .iris => { s with iris := s.iris.write off v }
  | .peer => s.peerWrite off v
  | .mgmt => s.mgmtWrite off v

/-- A word whose writable bits are all W1C: the bytes that a write does not cover give zeros. -/
def regClears (b : RegBlock) (off : Nat) : Bool :=
  match b with
  | .xlate => off == 0x18
  | .codecs => off % 0x10000 == 0x30
  | .dist => off == 0x0004 || off == 0x0124
  | .iris => off == 0x020
  | .peer => off == 4
  | .mgmt => off == 0x14 || off == 0x20001C
  | .mapUnits => false

end Sys2Proof.Machine
end

