-- ==== Sys2Proof/Machine/Access.lean ====
section
/-! DEFINITION. The physical map (11 R347) and what a load or a store of an asynchronous agent does there (10 R336,
11 R345, R346, 13 R382, 17 R465). -/

namespace Sys2Proof.Machine

/-! ## Words of registers -/

/-- Write bytes to a block of registers, word by word: the bytes of a word that are not written stand, and give
zeros where the word's writable bits are W1C. -/
def State.putRegs (s : State) (host : Bool) (b : RegBlock) (off : Nat) (bs : List Byte) : State :=
  (wordsOf off bs.length).foldl (fun s w =>
    let old := if regClears b (4 * w) then 0 else s.regRead b (4 * w)
    let v := mergeWord old (fun k => if off ≤ 4 * w + k then bs[4 * w + k - off]? else none)
    s.regWrite host b (4 * w) (BitVec.ofNat 32 v)) s

/-! ## Signal slots -/

/-- Bytes stored into the signal slots (R382): CTX keeps 6 bits, and bytes 6 and 7 stay zero. -/
def State.putSlots (s : State) (off : Nat) (bs : List Byte) : State :=
  { s with dist := { s.dist with signals :=
      (List.range bs.length).foldl (fun m k =>
        let b := bs.getD k 0
        let o := (off + k) % 16
        if o = 6 ∨ o = 7 then m else memWrite m (off + k) (if o = 5 then b &&& 0x3F else b)) s.dist.signals } }

/-! ## Staging -/

/-- Bytes stored into staging's full/empty bits. -/
def State.putStgBits (s : State) (j : Nat) (bs : List Byte) : State :=
  { s with map := { s.map with stgFull :=
      (List.range (8 * bs.length)).foldl (fun m k =>
        setPut m (8 * j + k) ((bs.getD (k / 8) 0).toNat / 2 ^ (k % 8) % 2 == 1)) s.map.stgFull } }

/-! ## Windows -/

/-- Write bytes of a window, of a core without a task: instruction memory takes them at once (DESIGN CHOICE, log 96). A
poisoned request poisons the words that it reaches, and changes no register. -/
def State.windowStore (s : State) (p o : Nat) (bs : List Byte) (bad : Bool) : State :=
  if !s.coreEnabled p then s
  else
    s.onCoreAt p (fun c =>
      if !bad then c.putWindow o bs
      else if o < 0xA1000 then
        let c' := c.putMem o bs
        { c' with poison := poisonAfter c'.poison o bs.length true }
      else if 0xC0000 ≤ o ∧ o < 0xD0000 then c.putImem (o - 0xC0000) bs true
      else c)

/-! ## Accesses -/

/-- A store of bytes at a physical address, by the host through context ctx's function or by a hart. The
spec does not state what a poisoned request does; here its words are poisoned, and registers, slots and
full/empty bits do not change (log 21). -/
def State.physSave (s : State) (host : Bool) (ctx a : Nat) (bs : List Byte) (bad : Bool) : State × Answer :=
  match regionAt a bs.length with
  | none => (s, .unmapped)
  | some r =>
    let o := a - r.base
    match r.kind with
    | .gddr =>
      let s := s.gddrStore o bs
      (if bad && !bs.isEmpty then (blocks64 o bs.length).foldl (fun s b => s.listBlock b ctx 0) s else s, .ok [] false)
    | .windows =>
      if s.windowBusy (o / 0x100000) then (s, .busy)
      else (s.windowStore (o / 0x100000) (o % 0x100000) bs bad, .ok [] false)
    | .staging => (s.putStaging o bs bad, .ok [] false)
    | .stgBits => (if bad then s else s.putStgBits o bs, .ok [] false)
    | .slots => (if bad then s else s.putSlots o bs, .ok [] false)
    | .regs b => (if bad then s else s.putRegs host b o bs, .ok [] false)

/-! ## Stages -/

/-- The stage from which a physical address answers the host (R464, R465). -/
def stageOf (a : Nat) : Nat :=
  match regionAt a 1 with
  | none => 0
  | some r =>
    match r.kind with
    | .windows => 2
    | .regs .iris => 2
    | .regs .codecs => 2
    | .regs .mgmt =>
      let o := a - r.base
      if o < 0x2000 ∨ (0x100000 ≤ o ∧ o < 0x101000) ∨ (0x400000 ≤ o ∧ o < 0x800000) then 0 else 1
    | _ => 1

/-- The device answers the host at an address in the stage that it has reached. -/
def State.provides (s : State) (a : Nat) : Bool := s.inStage (stageOf a)

end Sys2Proof.Machine
end

