-- ==== Sys2Proof/Machine/Harts.lean ====
section
/-! DEFINITION. What the distributor's harts do to the machine (13 R376 to R380, 10 R332): loads and stores, the
custom CSRs, and window atomics. Their instructions stand in Rv32. -/

namespace Sys2Proof.Machine

/-- The places of the harts' address map (R377). -/
inductive HartPlace where
  | imem (o : Nat)
  | dmem (o : Nat)
  | phys (a : Nat)
deriving DecidableEq, Repr

/-- The harts' address map (R377). -/
def Hart.place (x : Hart) (addr : Nat) : Option HartPlace :=
  if addr < 0x8000 then some (.imem addr)
  else if 0x10000000 ≤ addr ∧ addr < 0x10008000 then some (.dmem (addr - 0x10000000))
  else if 0x20000000 ≤ addr ∧ addr < 0x20040000 then some (.phys (0x450000000000 + (addr - 0x20000000)))
  else if 0x80000000 ≤ addr then some (.phys (x.dwin.toNat % 2 ^ 17 * 2 ^ 31 + addr % 2 ^ 31))
  else none

/-- Write a hart's register; x0 stays 0. -/
def Hart.setX (x : Hart) (rd : Nat) (v : Word) : Hart :=
  if rd = 0 then x else { x with x := x.x.setIfInBounds rd v }

/-- A hart's instruction has completed: it is 4 bytes long where its low two bits are ones, else 2. -/
def Hart.retire (x : Hart) : Hart :=
  { x with pc := x.pc + (if readLE x.imem x.pc.toNat 1 % 4 = 3 then 4 else 2), minstret := x.minstret + 1 }

/-- A hart takes an exception in machine mode, with mtvec in direct mode (R376). -/
def Hart.raise (x : Hart) (cause : Nat) (tval : Word) : Hart :=
  let mie := wbit x.mstatus 3
  { x with
    mepc := x.pc
    mcause := BitVec.ofNat 32 cause
    mtval := tval
    mstatus := BitVec.ofNat 32 (x.mstatus.toNat - bit mie * 8 - bit (wbit x.mstatus 7) * 128 + bit mie * 128)
    pc := BitVec.ofNat 32 (x.mtvec.toNat / 4 * 4) }

/-- What a load gives its register: n bytes, with the sign or zeros above them. -/
def loadValue (bs : List Byte) (signed : Bool) : Word :=
  let n := bs.length
  let v := natOfBytes bs
  BitVec.ofNat 32 (if signed ∧ 2 ^ (8 * n - 1) ≤ v then 2 ^ 32 - 2 ^ (8 * n) + v else v)

/-- A hart's load of n bytes: the state after it and the bytes, or an access fault. A listed block faults
(R346), and so does the window of a core that holds a task (log 22). -/
def State.hartLoad (s : State) (h addr n : Nat) : State × Option (List Byte) :=
  let x := s.hart h
  match x.place addr with
  | none => (s, none)
  | some (.imem o) => (s, some (readBytes x.imem o n))
  | some (.dmem o) => (s, some (readBytes x.dmem o n))
  | some (.phys a) =>
    match s.physLoad a n with
    | (s', .ok bs bad) => if bad && decide (a < gddrSize) then (s, none) else (s', some bs)
    | (_, _) => (s, none)

/-- A hart's store: the state after it, or an access fault. -/
def State.hartStore (s : State) (h addr : Nat) (bs : List Byte) : Option State :=
  let x := s.hart h
  match x.place addr with
  | none => none
  | some (.imem o) => some (s.setHart h { x with imem := writeBytes x.imem o bs })
  | some (.dmem o) => some (s.setHart h { x with dmem := writeBytes x.dmem o bs })
  | some (.phys a) =>
    match s.physSave false 0 a bs false with
    | (s', .ok _ _) => some s'
    | (_, _) => none

/-- A hart's load or store of n bytes (R376, R377). -/
def State.hartAccess (s : State) (h addr n : Nat) (signed : Bool) (rd : Nat) (store : Option Word) : State :=
  let trap := fun (cause : Nat) => s.setHart h ((s.hart h).raise cause (BitVec.ofNat 32 addr))
  match store with
  | none =>
    if addr % n ≠ 0 then trap 4
    else
      match s.hartLoad h addr n with
      | (s', some bs) => s'.setHart h (((s'.hart h).setX rd (loadValue bs signed)).retire)
      | (_, none) => trap 5
  | some v =>
    if addr % n ≠ 0 then trap 6
    else
      match s.hartStore h addr (bytesOfNat n v.toNat) with
      | some s' => s'.setHart h (s'.hart h).retire
      | none => trap 7

/-- A step of hart h: nothing happens while the harts are held in reset (R379). -/
def onHart (s : State) (h : Nat) (f : Hart → State → State) : Out :=
  if 8 ≤ h then .fault (.noSuchUnit "hart" h)
  else .next (if s.dist.run then f (s.hart h) s else s)

/-- HART_LOAD_STORE (R332, R376): an access of 1, 2 or 4 bytes. -/
def execHartLoadStore (h : Nat) (addr : BitVec 32) (n : Nat) (signed : Bool) (rd : Nat) (store : Option (BitVec 32))
    (s : State) : Out :=
  onHart s h (fun _ s =>
    if n = 1 ∨ n = 2 ∨ n = 4 then s.hartAccess h addr.toNat n signed rd store else s)

/-- The oldest event that waits with an assist for hart h moves into its queue (R378); EPUB begins a new count of the energy
placed (R400). -/
def State.admitEvent (s : State) (h : Nat) : State :=
  match s.dist.stalled.find? (fun p => p.1 == h) with
  | some (_, e) =>
    let x := s.hart h
    let d := if e.toNat % 256 = 9 then s.dist.newPublication else s.dist
    State.setHart { s with dist := { d with stalled := s.dist.stalled.erase (h, e) } } h
      { x with events := x.events ++ [e] }
  | none => s

/-- A read of DEVT0 (R378): the oldest event is popped and its word 0 read, and 0 where there is none. The scoreboards,
which hold while their events find no room, release what has been due, and the launch bus reports the gangs that have
ended. -/
def State.popEvent (s : State) (h : Nat) : State × Word :=
  let x := s.hart h
  match x.events with
  | [] => (s, 0)
  | e :: t =>
    let w := fun k => BitVec.ofNat 32 (e.toNat / 2 ^ (32 * k))
    let s := (s.setHart h { x with events := t, devt1 := w 1, devt2 := w 2, devt3 := w 3 }).admitEvent h
    let s := s.reportEnds s.dist.ended.length
    (if h = 0 then (List.range 16).foldl (fun s n => s.evalBoard n) s else s, w 0)

/-- DEVT0 (R378): a read pops the oldest event and returns its word 0, and 0 where there is none. -/
def execDevt0 (h rd : Nat) (s : State) : Out :=
  onHart s h (fun _ s =>
    let (t, v) := s.popEvent h
    t.setHart h ((t.hart h).setX rd v).retire)

/-- DTIME (R378): a read returns TIME's low word and latches its high word. -/
def execDtime (h rd : Nat) (s : State) : Out :=
  onHart s h (fun x s =>
    let y : Hart := { x with dtimeh := BitVec.ofNat 32 (half s.time 1) }
    s.setHart h (y.setX rd (BitVec.ofNat 32 (half s.time 0))).retire)

/-- DPHASE (R378): a read returns the low word of chip PHASE and latches its high word. -/
def execDphase (h rd : Nat) (s : State) : Out :=
  onHart s h (fun x s =>
    let y : Hart := { x with dphaseh := BitVec.ofNat 32 (half s.iris.phase 1) }
    s.setHart h (y.setX rd (BitVec.ofNat 32 (half s.iris.phase 0))).retire)

/-- ATCMD (R380): hart h starts its window's atomic. -/
def execAtcmd (h : Nat) (v : BitVec 32) (s : State) : Out := onHart s h (fun _ s => s.windowAtomic h v)

/-- HART_RUN (R379): the host writes DCTL. -/
def execHartRun (v : BitVec 32) (s : State) : Out := s.request 1 (fun s => s.runHarts (wbit v 0))

end Sys2Proof.Machine
end

