-- ==== Sys2Proof/Machine/EngineOps.lean ====
section
/-! DEFINITION. What the steps of V, M and L share (R204, R205, R211 to R213, R252, R267, R271): the checks
of the addresses a step computes, the writes it gathers, and how a step takes effect or stops. -/

namespace Sys2Proof.Machine

/-! ## Accesses and their checks -/

/-- One access of a step: n bytes, the first at a and the last at z, a read under FEM code fem or a write; `quiet`
is POIS of the handle it goes through (R19). The bytes lie in a row but for an element of 6 bits that a swizzle
parts (R341). -/
structure Access where
  a : Nat
  z : Nat
  n : Nat
  write : Bool
  fem : Nat
  quiet : Bool
deriving DecidableEq, Repr

/-- A read of element n of a handle. -/
def readOf (h : HandleBits) (n : Nat) : Access :=
  { a := (hElem h n).1, z := hElemLast h n, n := hElemBytes h n, write := false, fem := hFem h, quiet := hPois h }

/-- A write of element n of a handle. -/
def writeOf (h : HandleBits) (n : Nat) : Access :=
  { a := (hElem h n).1, z := hElemLast h n, n := hElemBytes h n, write := true, fem := 0, quiet := false }

/-- A read of the scale of element n (R132). -/
def scaleReadOf (h : HandleBits) (n : Nat) : Access :=
  { a := hScaleAddr h n, z := hScaleAddr h n + hScaleBytes h - 1, n := hScaleBytes h, write := false, fem := hFem h, quiet := hPois h }

/-- A read of byte k of a handle (R206). -/
def byteReadOf (h : HandleBits) (k : Nat) : Access :=
  { a := hByteAddr h k, z := hByteAddr h k, n := 1, write := false, fem := hFem h, quiet := hPois h }

/-- A write of bytes. -/
def bytesWriteOf (a n : Nat) : Access := 
  { a := a, z := a + n - 1, n := n, write := true, fem := 0, quiet := false }

/-- What f gives for the bytes of an access: for the run from the first to the last, or where they are parted for each. -/
def Access.runs (x : Access) (f : Nat → Nat → List Nat) : List Nat :=
  if x.z = x.a + x.n - 1 then f x.a x.n else f x.a 1 ++ f x.z 1

/-- The granules that an access touches. -/
def Access.granules (x : Access) : List Nat := x.runs Machine.granules

/-- The 8-byte words that an access touches. -/
def Access.words (x : Access) : List Nat := x.runs eccWords

/-- An engine owns every accumulator bank that an access touches, with ACCOWN as captured; L is not
checked (R26). -/
def Access.owned (x : Access) (e : Eng) (own : BitVec 8) : Bool :=
  [x.a, x.z].all (fun b =>
    !inAcc b ||
    (match e with
     | .V => own.toNat / 2 ^ bankOf b % 2 == 1
     | .M => own.toNat / 2 ^ bankOf b % 2 == 0
     | _ => true))

/-- Why a step does not take effect: it waits on a granule (R29), or a fault with its code, SUB and ETVAL
(R211). -/
inductive Verdict where
  | wait
  | fault (code sub etval : Nat)
deriving DecidableEq, Repr

/-- The writers of a granule among V, M and L but for the instruction at the head of engine e (R212). -/
def Core.otherWriter (c : Core) (e : Eng) (g : Nat) : Bool :=
  [Eng.V, Eng.M, Eng.L].any (fun k =>
    let q := (c.eng k).queue
    (if k = e then q.drop 1 else q).any (fun x => entryWritesGranule x g))

/-- The empty granules that W and C reads meet, in the order of the reads. -/
def Core.emptyGranules (c : Core) (xs : List Access) : List Nat :=
  xs.flatMap (fun x =>
    if x.write || x.fem == 0 then [] else x.granules.filter (fun g => !setHas c.seenFull g))

/-- The checks of R211 for the accesses of one element, in its order; `oor` is the address of an index
element that is out of range (R234). A wait that another instruction of V, M or L can satisfy holds the
step (R31, R212), and so does a granule of `busy`, which an earlier read of the core cycle has met (R32). None where the
element may be accessed. -/
def Core.verdict (c : Core) (e : Eng) (own : BitVec 8) (busy : NatSet) (oor : Option Nat) (xs : List Access) :
    Option Verdict :=
  match xs.find? (fun x => !localMapped x.a || !localMapped x.z) with
  | some x => some (.fault 0x0A 0 x.a)
  | none =>
  match xs.find? (fun x => x.write && (inWindow x.a || inWindow x.z)) with
  | some x => some (.fault 0x0A 1 x.a)
  | none =>
  match xs.find? (fun x => !x.owned e own) with
  | some x => some (.fault 0x0A 2 x.a)
  | none =>
  match oor with
  | some a => some (.fault 0x0A 5 a)
  | none =>
  match c.emptyGranules xs with
  | [] => none
  | gs =>
    match gs.find? (fun g => !setHas busy g && !c.otherWriter e g) with
    | some g => some (.fault 0x07 0 (16 * g))
    | none => some .wait

/-- The checks of R211 for an element of which one address depends on the index that `ix` reads: `near` holds `ix` and the
accesses that do not depend on it, `far` the one that does. The index is read before it is judged (R29, R212): while it
waits, only an address of `near` outside the local ranges stops the step (DEDUCED, log 36). -/
def Core.indexVerdict (c : Core) (e : Eng) (own : BitVec 8) (busy : NatSet) (oor : Option Nat) (ix : Access)
    (near far : List Access) : Option Verdict :=
  match c.verdict e own busy none [ix] with
  | none => c.verdict e own busy oor (near ++ far)
  | some .wait =>
    match near.find? (fun x => !localMapped x.a || !localMapped x.z) with
    | some x => some (.fault 0x0A 0 x.a)
    | none => some .wait
  | some (.fault ..) => c.verdict e own busy none near

/-! ## The writes of a step -/

/-- The writes a step gathers: memory with them made, the bits written by byte address, and the 8-byte
words to be poisoned. -/
structure WSet where
  mem : Mem
  mask : Table
  psn : NatSet
deriving DecidableEq, Repr

/-- Note that bits of the bytes at a list of addresses are written. -/
def noteMask (t : Table) : List Nat → Nat → Table
  | [], _ => t
  | a :: as, m => noteMask (tabPut t a (tabGet t a ||| m % 256)) as (m / 256)

/-- Write the pattern of element n of a handle (R114). -/
def WSet.put (w : WSet) (h : HandleBits) (n v : Nat) : WSet :=
  { w with mem := writeElem w.mem h n v
           mask := noteMask w.mask (hElemAddrs h n) ((2 ^ hBits h - 1) * 2 ^ (hElem h n).2) }

/-- Write k bytes at a. -/
def WSet.putBytes (w : WSet) (a k v : Nat) : WSet :=
  { w with mem := writeLE w.mem a k v, mask := noteMask w.mask (List.range' a k) (256 ^ k - 1) }

/-- Poison every 8-byte word that holds a byte of row r of a handle (R213). -/
def WSet.poisonRow (w : WSet) (h : HandleBits) (r : Nat) : WSet :=
  { w with psn := (List.range (hRowBytes h)).foldl (fun s o =>
      let a := hRowAddr h r o
      if inScratch a || inAcc a then setAdd s (a / 8) else s) w.psn }

/-- A byte of row r of a handle is written. -/
def WSet.inRow (w : WSet) (h : HandleBits) (r : Nat) : Bool :=
  (List.range (hRowBytes h)).any (fun o => tabGet w.mask (hRowAddr h r o) != 0)

/-- The written bytes replace an 8-byte word whole. -/
def WSet.whole (w : WSet) (k : Nat) : Bool :=
  (List.range 8).all (fun i => tabGet w.mask (8 * k + i) == 255)

/-- The 8-byte words that the writes touch. -/
def WSet.words (w : WSet) : List Nat := (w.mask.map (fun (b : Nat × Nat) => b.1 / 8)).eraseDups

/-- The scratchpad granules that the writes touch. -/
def WSet.granules (w : WSet) : List Nat :=
  ((w.mask.map (fun (b : Nat × Nat) => b.1 / 16) ++ w.psn.map (· / 2)).eraseDups).filter (fun g => decide (g < 0x8000))

/-- Make the writes (R30, R213) on a core whose memory then is m: the granules become full, whole words lose their
poison, and the words of poisoned rows gain it. -/
def WSet.apply (w : WSet) (m : Mem) (c : Core) : Core :=
  { c with
    mem := m
    full := w.granules.foldl setAdd c.full
    poison := w.psn.foldl setAdd (w.words.foldl (fun s k => if w.whole k then setDel s k else s) c.poison) }

/-- The written bits laid on another memory. -/
def WSet.laidOn (w : WSet) (m : Mem) : Mem :=
  w.mask.foldl (fun m b =>
    memWrite m b.1 ((memRead m b.1 &&& ~~~BitVec.ofNat 8 b.2) ||| (memRead w.mem b.1 &&& BitVec.ofNat 8 b.2))) m

/-- The requester that a write of an engine is charged to (R339, R340): VD, MA, LW. -/
def writeRequester (e : Eng) : Nat :=
  match e with
  | .V => 3
  | .M => 5
  | .L => 7
  | .E => 9

/-- A write of part of an 8-byte word of the scratchpad costs 2 core cycles of its bank beyond the write (R340). -/
def WSet.charge (w : WSet) (e : Eng) (c : Core) : Core :=
  (w.words.filter (fun k => decide (k < 0x10000) && !w.whole k)).foldl (fun c k =>
    c.lose (k / 2) (writeRequester e) 2) c

/-! ## One core cycle of several engines (R32, R205) -/

/-- What the steps of one core cycle share (R32): local memory, full granules and poison as they stood before the
cycle, the granules that a W or C read of the cycle has met, those that it has written, and those that its landings have
set full. -/
structure Cycle where
  mem : Mem
  full : NatSet
  poison : NatSet
  taken : NatSet
  written : NatSet
  filled : NatSet
deriving DecidableEq, Repr

/-- The core as the reads of a cycle see it (R32): a granule that an earlier W or C read has met counts as empty. -/
def Cycle.view (y : Cycle) (c : Core) : Core :=
  { c with mem := y.mem, poison := y.poison, full := y.taken.foldl setDel y.full }

/-- The core as a landing of a cycle sees it (R32): its reads as those of the engines, and the granules that it may not
overwrite as they stood before the cycle, with those that landings of the cycle have filled (DEDUCED, log 103). -/
def Cycle.landView (y : Cycle) (c : Core) : Core :=
  { y.view c with full := y.filled.foldl setAdd y.full, readFull := some (y.taken.foldl setDel y.full) }

/-! ## The work of a step -/

/-- What a step has gathered so far: the core that it reads, the engine, its entry, the core that its effects
change with the core cycle that it shares, if any (R32), the writes, the granules that C reads clear and those that W
and C reads meet, the flags, the first destination that raised an enabled condition (R214), the first
poisoned element met with whether it must be reported (R213), whether a plane's poison mark was met and whether it
is loud (R267), the poisoned destination rows, the entry to push, and why it stops. -/
structure Work where
  c : Core
  e : Eng
  x : Entry
  on : Core
  cycle : Option Cycle
  ws : WSet
  clears : List Nat
  takes : List Nat
  flags : Nat
  stat : Nat
  low : Option Nat
  met : Option (Nat × Bool)
  mark : Option Bool
  rows : List Nat
  push : Option Nat
  stop : Option Verdict
deriving DecidableEq, Repr

/-- A step that has gathered nothing: alone in its core cycle, or with others (R32). -/
def Work.start (y : Option Cycle) (c : Core) (e : Eng) (x : Entry) : Work :=
  let r := match y with
    | none => c
    | some y => y.view c
  { c := r, e := e, x := x, on := c, cycle := y, ws := { mem := r.mem, mask := [], psn := [] }, clears := []
    takes := [], flags := 0, stat := 0, low := none, met := none, mark := none, rows := [], push := none, stop := none }

/-- A poisoned read among accesses: the first poisoned one and whether some handle that met poison has
POIS = 0. -/
def Core.poisonedReads (c : Core) (xs : List Access) : Option (Nat × Bool) :=
  match xs.filter (fun x => !x.write && x.words.any (setHas c.poison)) with
  | [] => none
  | y :: ys => some (y.a, (y :: ys).any (fun x => !x.quiet))

/-- Join what earlier reads of the instruction met with a later meeting (R213). -/
def joinMet : Option (Nat × Bool) → Option (Nat × Bool) → Option (Nat × Bool)
  | none, m => m
  | m, none => m
  | some (a, r), some (_, q) => some (a, r || q)

/-- The granules that earlier W and C reads of the core cycle have met (R32). -/
def Work.busy (w : Work) : NatSet := (w.cycle.map (·.taken)).getD []

/-- Make the accesses of one element, given why they stop, if so: note the clears of C reads and the poison met; the
result says whether some read was poisoned. -/
def Work.make (w : Work) (v : Option Verdict) (xs : List Access) : Work × Bool :=
  match w.stop with
  | some _ => (w, false)
  | none =>
    match v with
    | some v => ({ w with stop := some v }, false)
    | none =>
      let p := w.c.poisonedReads xs
      ({ w with clears := w.clears ++ (xs.filter (fun x => !x.write && x.fem == 2)).flatMap Access.granules
                takes := w.takes ++ (xs.filter (fun x => !x.write && x.fem != 0)).flatMap Access.granules
                met := joinMet w.met p }, p.isSome)

/-- Check and make the accesses of one element (R211). -/
def Work.access (w : Work) (oor : Option Nat) (xs : List Access) : Work × Bool :=
  w.make (w.c.verdict w.e w.x.accown w.busy oor xs) xs

/-- Check and make the accesses of one element of which one depends on an index (R211, R212). -/
def Work.indexed (w : Work) (ix : Access) (near far : List Access) (oor : Option Nat) : Work × Bool :=
  w.make (w.c.indexVerdict w.e w.x.accown w.busy oor ix near far) (near ++ far)

/-- Note a poisoned destination row. -/
def Work.poisonRow (w : Work) (r : Nat) : Work :=
  if w.rows.contains r then w else { w with rows := w.rows ++ [r] }

/-- FPCTL.XEN as captured (R129). -/
def Entry.xen (x : Entry) : Nat := bits x.fpctl.toNat 8 4

/-- Some condition of a mask is enabled. -/
def anyEnabled (flags xen : Nat) : Bool := flags &&& xen != 0

/-- Note the conditions that a rounding for a destination at an address reports (R214). -/
def Work.flag (w : Work) (flags a : Nat) : Work :=
  { w with flags := w.flags ||| flags
           low := if w.low.isNone && anyEnabled flags w.x.xen then some a else w.low }

/-- Poison the rows noted, in the destination handle. -/
def Work.poisonRows (w : Work) (h : HandleBits) : Work :=
  { w with ws := w.rows.foldl (fun s r => s.poisonRow h r) w.ws }

/-- Why the step stops: an access check, else an enabled condition (R211, R214). -/
def Work.verdict (w : Work) : Option Verdict :=
  match w.stop with
  | some v => some v
  | none => w.low.map (fun a => .fault 0x0A 4 a)

/-- The effects of a step on the core (R204): the clears of C reads, then the writes. In a shared core cycle the
writes of the engines before it stand, and a granule that they wrote stays full (R32). -/
def Work.effects (w : Work) : Core :=
  w.ws.charge w.e
    (match w.cycle with
     | none => w.ws.apply w.ws.mem { w.on with full := w.clears.foldl setDel w.on.full }
     | some y =>
       w.ws.apply (w.ws.laidOn w.on.mem)
         { w.on with full := (w.clears.filter (fun g => !setHas y.written g)).foldl setDel w.on.full })

/-- The cycle after a step has taken its effects. -/
def Work.after (w : Work) (y : Cycle) : Cycle :=
  { y with taken := w.takes.foldl setAdd y.taken, written := w.ws.granules.foldl setAdd y.written }

/-- Whether a step takes effect now, waits, or raises an imprecise fault. -/
inductive StepOut where
  | wait
  | fault (code sub etval : Nat)
  | full (n v : Nat)
  | done (c : Core)
deriving DecidableEq, Repr

/-- What comes of a step's work: its effects with the flags set by `set`, a hold at the full queue register
n (R36), or why it stops. The entry of V's last push is noted (R182, R232). -/
def Work.finish (w : Work) (queue : Option Nat) (set : Work → Core → Core) : StepOut :=
  match w.verdict with
  | some .wait => .wait
  | some (.fault a b v) => .fault a b v
  | none =>
    let c := set w w.effects
    match queue, w.push with
    | some n, some v =>
      if (c.queue n).length < 8 then
        .done { c.setQueue n (c.queue n ++ [BitVec.ofNat 32 v]) with
          vpushed := if w.e = .V then decide (entrySteps w.x ≤ c.engV.mpc.toNat + 1) else c.vpushed }
      else .full n v
    | _, _ => .done c

end Sys2Proof.Machine
end

