-- ==== Sys2Proof/Machine/ScalarAlu.lean ====
section
/-! DEFINITION. Classes 0x0 and 0x1: register arithmetic, multiplication, division, bit operations and FP32
(05 R145 to R156). -/

namespace Sys2Proof.Machine

/-- Two register groups to a third (R145); f takes the width in bits and the two values. -/
def groupOp (i : Instr) (h : Hdr) (w : Nat) (d a b : BitVec 6) (f : Nat → Nat → Nat → Nat) (s : State) :
    Out :=
  scalar i h (fun c => .retire
    (c.setGroup d.toNat w (f (32 * 2 ^ w) (c.group a.toNat w) (c.group b.toNat w))) 1) s

/-- Two registers to a third. -/
def wordOp (i : Instr) (h : Hdr) (d a b : BitVec 6) (f : Word → Word → Word) (s : State) : Out :=
  scalar i h (fun c => .retire (c.setReg d.toNat (f (c.reg a.toNat) (c.reg b.toNat))) 1) s

/-- One register to another. -/
def unaryOp (i : Instr) (h : Hdr) (d a : BitVec 6) (f : Word → Word) (s : State) : Out :=
  scalar i h (fun c => .retire (c.setReg d.toNat (f (c.reg a.toNat))) 1) s

/-- The number of leading zero bits of an n-bit number (R150, R219). -/
def leadingZeros (n x : Nat) : Nat := (List.range n).findIdx (fun i => x / 2 ^ (n - 1 - i) % 2 == 1)

/-- The number of trailing zero bits of an n-bit number (R150). -/
def trailingZeros (n x : Nat) : Nat := (List.range n).findIdx (fun i => x / 2 ^ i % 2 == 1)

/-- The number of one bits of an n-bit number (R150, R219). -/
def onesCount (n x : Nat) : Nat := ((List.range n).filter (fun i => x / 2 ^ i % 2 == 1)).length

/-- Whether bit i of a number is set. -/
def nbit (x i : Nat) : Bool := x / 2 ^ i % 2 == 1

/-- The two-way Morton code of BILV.2 (R151). -/
def interleave2 (x y : Nat) : Nat :=
  natOfBits (fun i => if i % 2 = 0 then nbit x (i / 2) else nbit y (i / 2)) 32

/-- The three-way Morton code of BILV.3 (R151): bits [31:30] stay 0. -/
def interleave3 (x y : Nat) : Nat :=
  natOfBits (fun i =>
    match i % 3 with
    | 0 => nbit x (i / 3)
    | 1 => nbit y (i / 3)
    | _ => nbit y (16 + i / 3)) 30

/-- BFI's result (R152): the field of the given position and width of d replaced by the low bits of x. -/
def insertField (d x y : Word) : Word :=
  let pos := bits y.toNat 4 0
  let wd := bits y.toNat 9 5 + 1
  let m : Word := BitVec.ofNat 32 ((2 ^ wd - 1) * 2 ^ pos)
  (d &&& ~~~m) ||| ((x <<< pos) &&& m)

/-- A register read as FP32. -/
def Core.fp (c : Core) (a : BitVec 6) : Val := Fmt.fp32.value (c.reg a.toNat).toNat

/-- FPCTL.RM of scalar FP32 (R127, R129). -/
def Core.fpMode (c : Core) : Mode := scalarMode (bits c.csr.fpctl.toNat 2 0)

/-- The mode is RDN, in which an exact zero sum is -0 (R153). -/
def Core.rdn (c : Core) : Bool := c.fpMode == .rdn

/-- x * y + z before its one rounding, with whether it is invalid (R153). -/
def fusedVal (rdn : Bool) (x y z : Val) : Val × Bool :=
  let p := x.mul y
  let q := p.1.add rdn z
  (q.1, p.2 || q.2)

/-- An FP32 operation (R153): the exact result and whether it is invalid, rounded once, with the flags. -/
def fpOp (i : Instr) (h : Hdr) (d : BitVec 6) (f : Core → Val × Bool) (s : State) : Out :=
  scalar i h (fun c =>
    let r := round .fp32 c.fpMode false (f c).1
    .retire ((c.setReg d.toNat (BitVec.ofNat 32 r.code)).setXf (Nat.lor r.flags (nvIf (f c).2))) 1) s

/-- FMIN and FMAX on FP32 codes (R154). -/
def minMaxFp32 (least : Bool) (x y : Nat) : Nat :=
  let a := Fmt.fp32.value x
  let b := Fmt.fp32.value y
  if a.isNan && b.isNan then 0x7FC00000
  else if a.isNan then y
  else if b.isNan then x
  else if a.ltz b == least then x else y

/-- FCVT (R155). -/
def convert (i : Instr) (h : Hdr) (d : BitVec 6) (f : Fmt) (v : Core → Val) (s : State) : Out :=
  scalar i h (fun c =>
    let r := round f c.fpMode false (v c)
    .retire ((c.setReg d.toNat (BitVec.ofNat 32 r.code)).setXf r.flags) 1) s

/-- ADD (R145). -/
def execAdd (h : Hdr) (w : BitVec 1) (d a b : BitVec 6) (s : State) : Out :=
  groupOp (.add h w d a b) h w.toNat d a b (fun _ x y => x + y) s

/-- SUB (R145). -/
def execSub (h : Hdr) (w : BitVec 1) (d a b : BitVec 6) (s : State) : Out :=
  groupOp (.sub h w d a b) h w.toNat d a b (fun n x y => x + 2 ^ n - y) s

/-- AND (R145). -/
def execAnd (h : Hdr) (w : BitVec 2) (d a b : BitVec 6) (s : State) : Out :=
  groupOp (.and h w d a b) h w.toNat d a b (fun _ x y => Nat.land x y) s

/-- OR (R145). -/
def execOr (h : Hdr) (w : BitVec 2) (d a b : BitVec 6) (s : State) : Out :=
  groupOp (.or h w d a b) h w.toNat d a b (fun _ x y => Nat.lor x y) s

/-- XOR (R145). -/
def execXor (h : Hdr) (w : BitVec 2) (d a b : BitVec 6) (s : State) : Out :=
  groupOp (.xor h w d a b) h w.toNat d a b (fun _ x y => Nat.xor x y) s

/-- ANDN (R145). -/
def execAndn (h : Hdr) (w : BitVec 2) (d a b : BitVec 6) (s : State) : Out :=
  groupOp (.andn h w d a b) h w.toNat d a b (fun n x y => Nat.land x (2 ^ n - 1 - y)) s

/-- SHL (R145). -/
def execShl (h : Hdr) (d a b : BitVec 6) (s : State) : Out :=
  wordOp (.shl h d a b) h d a b (fun x y => x <<< (y.toNat % 32)) s

/-- SHR (R145). -/
def execShr (h : Hdr) (d a b : BitVec 6) (s : State) : Out :=
  wordOp (.shr h d a b) h d a b (fun x y => x >>> (y.toNat % 32)) s

/-- SRA (R145). -/
def execSra (h : Hdr) (d a b : BitVec 6) (s : State) : Out :=
  wordOp (.sra h d a b) h d a b (fun x y => x.sshiftRight (y.toNat % 32)) s

/-- ROT (R145): rotation right. -/
def execRot (h : Hdr) (d a b : BitVec 6) (s : State) : Out :=
  wordOp (.rot h d a b) h d a b (fun x y => x.rotateRight (y.toNat % 32)) s

/-- MIN (R145). -/
def execMin (h : Hdr) (d a b : BitVec 6) (s : State) : Out :=
  wordOp (.min h d a b) h d a b (fun x y => if x.toInt ≤ y.toInt then x else y) s

/-- MAX (R145). -/
def execMax (h : Hdr) (d a b : BitVec 6) (s : State) : Out :=
  wordOp (.max h d a b) h d a b (fun x y => if x.toInt ≤ y.toInt then y else x) s

/-- MINU (R145). -/
def execMinu (h : Hdr) (d a b : BitVec 6) (s : State) : Out :=
  wordOp (.minu h d a b) h d a b (fun x y => if x.toNat ≤ y.toNat then x else y) s

/-- MAXU (R145). -/
def execMaxu (h : Hdr) (d a b : BitVec 6) (s : State) : Out :=
  wordOp (.maxu h d a b) h d a b (fun x y => if x.toNat ≤ y.toNat then y else x) s

/-- CMP.EQ (R146). -/
def execCmpEq (h : Hdr) (w : BitVec 1) (p : BitVec 3) (a b : BitVec 6) (s : State) : Out :=
  scalar (.cmpEq h w p a b) h (fun c => .retire (c.setPred p.toNat
    (Cond.holds .eq (32 * 2 ^ w.toNat) (c.group a.toNat w.toNat) (c.group b.toNat w.toNat))) 1) s

/-- CMP.NE (R146). -/
def execCmpNe (h : Hdr) (w : BitVec 1) (p : BitVec 3) (a b : BitVec 6) (s : State) : Out :=
  scalar (.cmpNe h w p a b) h (fun c => .retire (c.setPred p.toNat
    (Cond.holds .ne (32 * 2 ^ w.toNat) (c.group a.toNat w.toNat) (c.group b.toNat w.toNat))) 1) s

/-- CMP.LT (R146). -/
def execCmpLt (h : Hdr) (w : BitVec 1) (p : BitVec 3) (a b : BitVec 6) (s : State) : Out :=
  scalar (.cmpLt h w p a b) h (fun c => .retire (c.setPred p.toNat
    (Cond.holds .lt (32 * 2 ^ w.toNat) (c.group a.toNat w.toNat) (c.group b.toNat w.toNat))) 1) s

/-- CMP.LE (R146). -/
def execCmpLe (h : Hdr) (w : BitVec 1) (p : BitVec 3) (a b : BitVec 6) (s : State) : Out :=
  scalar (.cmpLe h w p a b) h (fun c => .retire (c.setPred p.toNat
    (Cond.holds .le (32 * 2 ^ w.toNat) (c.group a.toNat w.toNat) (c.group b.toNat w.toNat))) 1) s

/-- CMP.LTU (R146). -/
def execCmpLtu (h : Hdr) (w : BitVec 1) (p : BitVec 3) (a b : BitVec 6) (s : State) : Out :=
  scalar (.cmpLtu h w p a b) h (fun c => .retire (c.setPred p.toNat
    (Cond.holds .ltu (32 * 2 ^ w.toNat) (c.group a.toNat w.toNat) (c.group b.toNat w.toNat))) 1) s

/-- CMP.LEU (R146). -/
def execCmpLeu (h : Hdr) (w : BitVec 1) (p : BitVec 3) (a b : BitVec 6) (s : State) : Out :=
  scalar (.cmpLeu h w p a b) h (fun c => .retire (c.setPred p.toNat
    (Cond.holds .leu (32 * 2 ^ w.toNat) (c.group a.toNat w.toNat) (c.group b.toNat w.toNat))) 1) s

/-- SEL (R147). -/
def execSel (h : Hdr) (n : BitVec 3) (w : BitVec 2) (d a b : BitVec 6) (s : State) : Out :=
  scalar (.sel h n w d a b) h (fun c => .retire (c.setGroup d.toNat w.toNat
    (if c.pred n.toNat then c.group a.toNat w.toNat else c.group b.toNat w.toNat)) 1) s

/-- MUL (R148). -/
def execMul (h : Hdr) (d a b : BitVec 6) (s : State) : Out :=
  wordOp (.mul h d a b) h d a b (fun x y => x * y) s

/-- MULH (R148). -/
def execMulh (h : Hdr) (d a b : BitVec 6) (s : State) : Out :=
  wordOp (.mulh h d a b) h d a b (fun x y => BitVec.ofInt 32 (x.toInt * y.toInt / 2 ^ 32)) s

/-- MULHU (R148). -/
def execMulhu (h : Hdr) (d a b : BitVec 6) (s : State) : Out :=
  wordOp (.mulhu h d a b) h d a b (fun x y => BitVec.ofNat 32 (x.toNat * y.toNat / 2 ^ 32)) s

/-- DIV (R149). -/
def execDiv (h : Hdr) (d a b : BitVec 6) (s : State) : Out :=
  wordOp (.div h d a b) h d a b (fun x y => if y = 0 then 0xFFFFFFFF else BitVec.ofInt 32 (x.toInt.tdiv y.toInt)) s

/-- DIVU (R149). -/
def execDivu (h : Hdr) (d a b : BitVec 6) (s : State) : Out :=
  wordOp (.divu h d a b) h d a b (fun x y => if y = 0 then 0xFFFFFFFF else BitVec.ofNat 32 (x.toNat / y.toNat)) s

/-- REM (R149). -/
def execRem (h : Hdr) (d a b : BitVec 6) (s : State) : Out :=
  wordOp (.rem h d a b) h d a b (fun x y => if y = 0 then x else BitVec.ofInt 32 (x.toInt.tmod y.toInt)) s

/-- REMU (R149). -/
def execRemu (h : Hdr) (d a b : BitVec 6) (s : State) : Out :=
  wordOp (.remu h d a b) h d a b (fun x y => if y = 0 then x else BitVec.ofNat 32 (x.toNat % y.toNat)) s

/-- CLZ (R150). -/
def execClz (h : Hdr) (d a : BitVec 6) (s : State) : Out :=
  unaryOp (.clz h d a) h d a (fun x => BitVec.ofNat 32 (leadingZeros 32 x.toNat)) s

/-- CTZ (R150). -/
def execCtz (h : Hdr) (d a : BitVec 6) (s : State) : Out :=
  unaryOp (.ctz h d a) h d a (fun x => BitVec.ofNat 32 (trailingZeros 32 x.toNat)) s

/-- POPC (R150). -/
def execPopc (h : Hdr) (d a : BitVec 6) (s : State) : Out :=
  unaryOp (.popc h d a) h d a (fun x => BitVec.ofNat 32 (onesCount 32 x.toNat)) s

/-- BREV (R150). -/
def execBrev (h : Hdr) (d a : BitVec 6) (s : State) : Out :=
  unaryOp (.brev h d a) h d a (fun x => BitVec.ofNat 32 (natOfBits (fun i => wbit x (31 - i)) 32)) s

/-- BILV.2 (R151). -/
def execBilv2 (h : Hdr) (d a b : BitVec 6) (s : State) : Out :=
  wordOp (.bilv2 h d a b) h d a b (fun x y => BitVec.ofNat 32 (interleave2 x.toNat y.toNat)) s

/-- BILV.3 (R151). -/
def execBilv3 (h : Hdr) (d a b : BitVec 6) (s : State) : Out :=
  wordOp (.bilv3 h d a b) h d a b (fun x y => BitVec.ofNat 32 (interleave3 x.toNat y.toNat)) s

/-- BDLV.2 (R151). -/
def execBdlv2 (h : Hdr) (d a b : BitVec 6) (s : State) : Out :=
  wordOp (.bdlv2 h d a b) h d a b (fun x y => BitVec.ofNat 32 (natOfBits (fun i => wbit x (2 * i + y.toNat % 2)) 16)) s

/-- BDLV.3 (R151). -/
def execBdlv3 (h : Hdr) (d a b : BitVec 6) (s : State) : Out :=
  wordOp (.bdlv3 h d a b) h d a b (fun x y => if y.toNat % 4 = 3 then 0 else BitVec.ofNat 32 (natOfBits (fun i => wbit x (3 * i + y.toNat % 4)) 10)) s

/-- BFX (R152). -/
def execBfx (h : Hdr) (d a b : BitVec 6) (s : State) : Out :=
  wordOp (.bfx h d a b) h d a b (fun x y => BitVec.ofNat 32 (x.toNat / 2 ^ (bits y.toNat 4 0) % 2 ^ (bits y.toNat 9 5 + 1))) s

/-- BFI (R152). -/
def execBfi (h : Hdr) (d a b : BitVec 6) (s : State) : Out :=
  scalar (.bfi h d a b) h (fun c =>
    .retire (c.setReg d.toNat (insertField (c.reg d.toNat) (c.reg a.toNat) (c.reg b.toNat))) 1) s

/-- FADD (R153). -/
def execFadd (h : Hdr) (d a b : BitVec 6) (s : State) : Out :=
  fpOp (.fadd h d a b) h d (fun c => (c.fp a).add (c.rdn) (c.fp b)) s

/-- FMUL (R153). -/
def execFmul (h : Hdr) (d a b : BitVec 6) (s : State) : Out :=
  fpOp (.fmul h d a b) h d (fun c => (c.fp a).mul (c.fp b)) s

/-- FMA (R153): one rounding. -/
def execFma (h : Hdr) (d a b : BitVec 6) (s : State) : Out :=
  fpOp (.fma h d a b) h d (fun c => fusedVal c.rdn (c.fp a) (c.fp b) (c.fp d)) s

/-- FMIN (R154). -/
def execFmin (h : Hdr) (d a b : BitVec 6) (s : State) : Out :=
  wordOp (.fmin h d a b) h d a b (fun x y => BitVec.ofNat 32 (minMaxFp32 true x.toNat y.toNat)) s

/-- FMAX (R154). -/
def execFmax (h : Hdr) (d a b : BitVec 6) (s : State) : Out :=
  wordOp (.fmax h d a b) h d a b (fun x y => BitVec.ofNat 32 (minMaxFp32 false x.toNat y.toNat)) s

/-- FCVT.F.I (R155). -/
def execFcvtFI (h : Hdr) (d a : BitVec 6) (s : State) : Out :=
  convert (.fcvtFI h d a) h d .fp32 (fun c => Val.ofInt (c.reg a.toNat).toInt) s

/-- FCVT.F.U (R155). -/
def execFcvtFU (h : Hdr) (d a : BitVec 6) (s : State) : Out :=
  convert (.fcvtFU h d a) h d .fp32 (fun c => Val.ofInt (c.reg a.toNat).toNat) s

/-- FCVT.I.F (R155). -/
def execFcvtIF (h : Hdr) (d a : BitVec 6) (s : State) : Out :=
  convert (.fcvtIF h d a) h d .int32 (fun c => c.fp a) s

/-- FCVT.U.F (R155). -/
def execFcvtUF (h : Hdr) (d a : BitVec 6) (s : State) : Out :=
  convert (.fcvtUF h d a) h d .uint32 (fun c => c.fp a) s

/-- FCMP.EQ (R156). -/
def execFcmpEq (h : Hdr) (p : BitVec 3) (a b : BitVec 6) (s : State) : Out :=
  scalar (.fcmpEq h p a b) h (fun c => .retire (c.setPred p.toNat
    (FCond.holds .eq (c.reg a.toNat).toNat (c.reg b.toNat).toNat)) 1) s

/-- FCMP.LT (R156). -/
def execFcmpLt (h : Hdr) (p : BitVec 3) (a b : BitVec 6) (s : State) : Out :=
  scalar (.fcmpLt h p a b) h (fun c => .retire (c.setPred p.toNat
    (FCond.holds .lt (c.reg a.toNat).toNat (c.reg b.toNat).toNat)) 1) s

/-- FCMP.LE (R156). -/
def execFcmpLe (h : Hdr) (p : BitVec 3) (a b : BitVec 6) (s : State) : Out :=
  scalar (.fcmpLe h p a b) h (fun c => .retire (c.setPred p.toNat
    (FCond.holds .le (c.reg a.toNat).toNat (c.reg b.toNat).toNat)) 1) s

/-- FCMP.UN (R156). -/
def execFcmpUn (h : Hdr) (p : BitVec 3) (a b : BitVec 6) (s : State) : Out :=
  scalar (.fcmpUn h p a b) h (fun c => .retire (c.setPred p.toNat
    (FCond.holds .un (c.reg a.toNat).toNat (c.reg b.toNat).toNat)) 1) s

end Sys2Proof.Machine
end

