-- ==== Sys2Proof/Machine/Transcend.lean ====
section
/-! DEFINITION. The transcendental functions of R217 and R218. The function itself is evaluated to 768 bits
below the point; the value a cell gives is any FP32 value within the bound of R217, which one being a free
value of Config (log 7). -/

namespace Sys2Proof.Machine

/-- Bits below the point. -/
def fxBits : Nat := 768

/-- One, in fixed point. -/
def fxOne : Nat := 2 ^ fxBits

/-- The sum of z^k / k! from the term given, in fixed point. -/
def expTerms (z : Nat) : Nat → Nat → Nat → Nat → Nat
  | 0, _, _, acc => acc
  | f + 1, k, t, acc => expTerms z f (k + 1) (t * z / 2 ^ fxBits / (k + 1)) (acc + t)

/-- e^z for z below 2 in fixed point. -/
def fxExpSmall (z : Nat) : Nat := expTerms z 200 0 fxOne 0

/-- The sum of z^(2k+1) / (2k+1), alternating where alt is set, in fixed point with p bits below the
point. -/
def atanTerms (p zz : Nat) (alt : Bool) : Nat → Nat → Nat → Int → Int
  | 0, _, _, acc => acc
  | f + 1, k, t, acc =>
    let u : Int := ((t / (2 * k + 1) : Nat) : Int)
    atanTerms p zz alt f (k + 1) (t * zz / 2 ^ p) (if alt && k % 2 == 1 then acc - u else acc + u)

/-- atanh(z) for z up to 1/3 in fixed point. -/
def fxAtanh (z : Nat) : Nat := (atanTerms fxBits (z * z / fxOne) false 260 0 z 0).toNat

/-- The natural logarithm of 2 in fixed point. -/
def fxLn2 : Nat := 2 * fxAtanh (fxOne / 3)

/-- Bits below the point of pi. -/
def piBits : Nat := 960

/-- pi with 960 bits below the point (Machin's formula). -/
def fxPi : Nat :=
  let z := fun k : Nat => 2 ^ piBits / k
  let at' := fun k : Nat => atanTerms piBits (z k * z k / 2 ^ piBits) true 260 0 (z k) 0
  (16 * at' 5 - 4 * at' 239).toNat

/-- e^(-z) in fixed point, z in fixed point. -/
def fxExpNeg (z : Nat) : Nat :=
  if 1024 * fxOne ≤ z then 0
  else
    let k := z / fxLn2 + 1
    fxExpSmall (k * fxLn2 - z) / 2 ^ k

/-- The alternating series of sine and cosine from the term given, in fixed point. -/
def sinTerms (zz : Nat) : Nat → Nat → Nat → Int → Int
  | 0, _, _, acc => acc
  | f + 1, k, t, acc =>
    sinTerms zz f (k + 2) (t * zz / fxOne / ((k + 1) * (k + 2))) (if k / 2 % 2 = 0 then acc + t else acc - t)

/-- sin z for z up to 2 in fixed point. -/
def fxSin (z : Nat) : Int := sinTerms (z * z / fxOne) 110 1 z 0

/-- cos z for z up to 2 in fixed point. -/
def fxCos (z : Nat) : Int := sinTerms (z * z / fxOne) 110 0 fxOne 0

/-- A signed fixed-point number as a value. -/
def valOfFx (i : Int) : Val := .fin (decide (i < 0)) i.natAbs fxOne

/-- The quarter turns in n / d and what remains of it, in fixed point. -/
def reduceAngle (n d : Nat) : Nat × Nat :=
  let x := n * 2 ^ piBits / d
  let q := x / (fxPi / 2)
  (q % 4, if n * fxOne < d then n * fxOne / d else (x % (fxPi / 2)) / 2 ^ (piBits - fxBits))

/-- sin(n / d). -/
def sinValue (n d : Nat) : Int :=
  let r := reduceAngle n d
  match r.1 with
  | 0 => fxSin r.2
  | 1 => fxCos r.2
  | 2 => -fxSin r.2
  | _ => -fxCos r.2

/-- cos(n / d). -/
def cosValue (n d : Nat) : Int :=
  let r := reduceAngle n d
  match r.1 with
  | 0 => fxCos r.2
  | 1 => -fxSin r.2
  | 2 => -fxCos r.2
  | _ => fxSin r.2

/-- 2^(n / d), negative where neg is set. -/
def exp2Value (neg : Bool) (n d : Nat) : Val :=
  let x : Int := if neg then -((n * fxOne / d : Nat) : Int) else ((n * fxOne / d : Nat) : Int)
  let i := x / (fxOne : Int)
  let f := (x - i * fxOne).toNat
  let m := fxExpSmall (f * fxLn2 / fxOne)
  if i < -400 then .fin false 1 (2 ^ 400)
  else if 400 < i then .fin false (2 ^ 400) 1
  else
    let p := mul2 m fxOne i
    .fin false p.1 p.2

/-- log2(n / d) for a positive dyadic fraction. -/
def log2Value (n d : Nat) : Val :=
  let e := floorLog2 n d
  let m := mul2 n d (-e)
  let l := 2 * fxAtanh ((m.1 - m.2) * fxOne / (m.1 + m.2)) * fxOne / fxLn2
  valOfFx (e * fxOne + l)

/-- tanh(n / d). -/
def tanhValue (n d : Nat) : Nat × Nat :=
  let t := fxExpNeg (2 * (n * fxOne / d))
  if n * 2 ^ 100 < d then (n * fxOne / d, fxOne) else (fxOne - t, fxOne + t)

/-- 1 / (1 + e^(-x)) for x = n / d with its sign. -/
def sigmValue (neg : Bool) (n d : Nat) : Val :=
  let t := fxExpNeg (n * fxOne / d)
  if neg then .fin false t (fxOne + t) else .fin false fxOne (fxOne + t)

/-- The value of a transcendental function at a finite argument. -/
def TOp.real (f : TOp) (neg : Bool) (n d : Nat) : Val :=
  match f with
  | .exp2 => exp2Value neg n d
  | .log2 => log2Value n d
  | .sin => valOfFx (if neg then -sinValue n d else sinValue n d)
  | .cos => valOfFx (cosValue n d)
  | .tanh => let t := tanhValue n d; .fin neg t.1 t.2
  | .sigm => sigmValue neg n d
  | .rcp => .fin neg d n
  | .rsq => let r := rsqrtFrac n d; .fin neg r.1 r.2

/-- The exact value where it is a rational number (R217 judges NX by it). -/
def TOp.rational (f : TOp) (neg : Bool) (n d : Nat) : Option Val :=
  match f with
  | .exp2 =>
    if n % d = 0 ∧ n / d < 1024 then
      let p := mul2 1 1 (if neg then -((n / d : Nat) : Int) else ((n / d : Nat) : Int))
      some (.fin false p.1 p.2)
    else none
  | .log2 =>
    let e := floorLog2 n d
    let m := mul2 n d (-e)
    if m.1 = m.2 then some (Val.ofInt e) else none
  | .sin | .tanh => if n = 0 then some (.fin neg 0 1) else none
  | .cos => if n = 0 then some .one else none
  | .sigm => if n = 0 then some (.fin false 1 2) else none
  | .rcp | .rsq => none

/-- The unit in the last place of FP32 at a value, as a fraction (R217). -/
def ulp (n d : Nat) : Nat × Nat :=
  if n = 0 then (1, 2 ^ 149)
  else mul2 1 1 (max (floorLog2 n d - 23) (-149))

/-- The bound of R217 on the FP32 result at an exact value n / d; for VLOG2 that on a result of magnitude 1 or more, whose ulp
is at least that of 1 (DEDUCED, log 39). -/
def TOp.bound (f : TOp) (n d : Nat) : Nat × Nat :=
  let u := ulp n d
  let larger := fun (p q : Nat × Nat) => if p.1 * q.2 ≤ q.1 * p.2 then q else p
  match f with
  | .log2 => ulp (max n d) d
  | .sin | .cos => (1, 2 ^ 22)
  | .tanh | .sigm => larger (2 * u.1, u.2) (1, 2 ^ 24)
  | _ => u

/-- FP32 codes as integers in the order of their values, -0 just below +0. -/
def orderOf (code : Nat) : Int := if code < 2 ^ 31 then code else -((code - 2 ^ 31 : Nat) : Int) - 1

/-- The FP32 code at a place of that order, infinity standing for 2^128. -/
def codeAt (i : Int) : Nat := if 0 ≤ i then min i.toNat 0x7F800000 else 2 ^ 31 + (-i - 1).toNat

/-- The first and the last FP32 code, by that order, whose values lie within b around the exact value. -/
def within (b : Nat × Nat) (neg : Bool) (n d : Nat) : Int × Int :=
  let x := Val.fin neg n d
  let lo := (x.add false (.fin true b.1 b.2)).1
  let hi := (x.add false (.fin false b.1 b.2)).1
  let ol := if lo.isZero then -1 else orderOf (round .fp32 .rup false lo).code
  let oh := match hi with
    | .fin false m e => if e * 2 ^ 128 ≤ m then (0x7F800000 : Int) else orderOf (round .fp32 .rdn false hi).code
    | _ => orderOf (round .fp32 .rdn false hi).code
  (ol, oh)

/-- The ranges of FP32 codes, by that order, that R217 allows at an exact value. The bound of VLOG2 depends on the magnitude of
the result: one ulp from 1 on, and 2^-22 below. -/
def TOp.ranges (f : TOp) (neg : Bool) (n d : Nat) : List (Int × Int) :=
  let r := within (f.bound n d) neg n d
  match f with
  | .log2 =>
    let i := within (1, 2 ^ 22) neg n d
    [(r.1, min r.2 (orderOf 0xBF800000)), (max i.1 (orderOf 0xBF7FFFFF), min i.2 (orderOf 0x3F7FFFFF)),
      (max r.1 (orderOf 0x3F800000), r.2)].filter (fun p => p.1 ≤ p.2)
  | _ => [r]

/-- Place k of ranges that are laid one behind the other. -/
def placeIn : List (Int × Int) → Nat → Int
  | [], _ => 0
  | (lo, hi) :: t, k =>
    let n := (hi - lo).toNat + 1
    if k < n ∨ t.isEmpty then lo + (k : Int) else placeIn t (k - n)

/-- The code that a free number chooses of those that R217 allows at an exact value. -/
def TOp.choose (f : TOp) (neg : Bool) (n d k : Nat) : Nat :=
  let rs := f.ranges neg n d
  codeAt (placeIn rs (k % max 1 (rs.foldl (fun a r => a + ((r.2 - r.1).toNat + 1)) 0)))

/-- The cell's number in Config. -/
def TOp.number : TOp → Nat
  | .exp2 => 0 | .log2 => 1 | .sin => 2 | .cos => 3 | .tanh => 4 | .sigm => 5 | .rcp => 6 | .rsq => 7

/-- The result must be the exact value (R217): VEXP2 at an integer with a normal result, VLOG2 at a power
of two. -/
def TOp.mustBeExact (f : TOp) (v : Val) : Bool :=
  match f with
  | .exp2 => (match v with
    | .fin _ n d => decide (-126 ≤ floorLog2 n d ∧ floorLog2 n d ≤ 127)
    | _ => false)
  | .log2 => true
  | _ => false

/-- F(a') of R217 for a finite a' of the given FP32 code: a free choice within the bound. -/
def TOp.pick (f : TOp) (code : Nat) (neg : Bool) (n d : Nat) : Nat :=
  match f.rational neg n d with
  | some v =>
    if f.mustBeExact v then (round .fp32 .rne false v).code
    else
      match v with
      | .fin s m e => f.choose s m e (Config.transcendental f.number code)
      | _ => 0
  | none =>
    match f.real neg n d with
    | .fin s m e => f.choose s m e (Config.transcendental f.number code)
    | _ => 0

/-- The conditions of forming y at a finite argument (R217), by the exact value f(a'). -/
def TOp.formFlags (f : TOp) (neg : Bool) (n d y : Nat) : Nat :=
  let v := (f.rational neg n d).getD (f.real neg n d)
  let exact := (f.rational neg n d).any (fun v => v.eqv (Fmt.fp32.value y))
  let nx := if exact then 0 else flagNX
  let of := if (Fmt.fp32.value y).isInf then flagOF else 0
  let uf := match v with
    | .fin _ m e => if !exact && !(m == 0 && (f.rational neg n d).isSome) && decide (m * 2 ^ 126 < e) then flagUF else 0
    | _ => 0
  nx + of + uf

/-- The special inputs of R218 for the cells of an FP32 argument: the result and its flag. -/
def TOp.special (f : TOp) (v : Val) : Option (Val × Nat) :=
  match f, v with
  | _, .nan => some (.nan, 0)
  | .rcp, .inf s => some (.fin s 0 1, 0)
  | .rcp, .fin s n _ => if n = 0 then some (.inf s, flagDZ) else none
  | .rsq, .inf s => some (if s then (.nan, flagNV) else (.zero, 0))
  | .rsq, .fin s n _ => if n = 0 then some (.inf s, flagDZ) else if s then some (.nan, flagNV) else none
  | .exp2, .inf s => some (if s then .zero else .inf false, 0)
  | .exp2, .fin .. => none
  | .log2, .inf s => some (if s then (.nan, flagNV) else (.inf false, 0))
  | .log2, .fin s n _ => if n = 0 then some (.inf true, flagDZ) else if s then some (.nan, flagNV) else none
  | .sin, .inf _ => some (.nan, flagNV)
  | .cos, .inf _ => some (.nan, flagNV)
  | .sin, .fin .. => none
  | .cos, .fin .. => none
  | .tanh, .inf s => some (.fin s 1 1, 0)
  | .tanh, .fin .. => none
  | .sigm, .inf s => some (if s then .zero else .one, 0)
  | .sigm, .fin .. => none

/-- F of an FP32 value (R217, R218): y with the conditions of forming it. -/
def TOp.form (f : TOp) (code : Nat) : Val × Nat :=
  let a := Fmt.fp32.value code
  match f.special a, a with
  | some r, _ => r
  | none, .fin s n d =>
    let y := f.pick code s n d
    (Fmt.fp32.value y, f.formFlags s n d y)
  | none, _ => (.nan, 0)

/-- f(a) for VRCP and VRSQ, exact or rounding as the exact value does; the other cells round a to FP32 and
form y (R217). -/
def TOp.apply (f : TOp) (a : Val) : Val × Nat :=
  match f with
  | .rcp | .rsq =>
    (match f.special a, a with
     | some r, _ => r
     | none, .fin s n d => (f.real s n d, 0)
     | none, _ => (.nan, 0))
  | _ =>
    let r := round .fp32 .rne false a
    let y := f.form r.code
    (y.1, r.flags ||| y.2)

end Sys2Proof.Machine
end

