-- ==== Sys2Proof/Machine/VecStep.lean ====
section
/-! DEFINITION. What a step of the vector engine does (07 R204 to R239): the cells over exact values, the
element-wise, row and quantising steps, and V_STEP itself. -/

namespace Sys2Proof.Machine

/-! ## Values -/

/-- The exact quotient with the special cases of IEEE 754, and its conditions (R128). -/
def Val.div (x y : Val) : Val × Nat :=
  match x, y with
  | .nan, _ => (.nan, 0)
  | _, .nan => (.nan, 0)
  | .inf _, .inf _ => (.nan, flagNV)
  | .inf s, .fin t _ _ => (.inf (s != t), 0)
  | .fin s _ _, .inf t => (.fin (s != t) 0 1, 0)
  | .fin s n d, .fin t m e =>
    if m = 0 then (if n = 0 then (.nan, flagNV) else (.inf (s != t), flagDZ))
    else (.fin (s != t) (n * e) (d * m), 0)

/-- A sum and the condition it raises. -/
def addF (rdn : Bool) (x y : Val) : Val × Nat := let r := x.add rdn y; (r.1, nvIf r.2)

/-- A product and the condition it raises. -/
def mulF (x y : Val) : Val × Nat := let r := x.mul y; (r.1, nvIf r.2)

/-- The exact sum of VRSUM, VSCAN and VSMAX with its specials (R231): NV only where no operand is NaN. -/
def exactSum (xs : List Val) : Val × Nat :=
  if xs.any Val.isNan then (.nan, 0)
  else
    let p := xs.any (fun x => x.isInf && !x.sign)
    let n := xs.any (fun x => x.isInf && x.sign)
    if p && n then (.nan, flagNV)
    else if p then (.inf false, 0)
    else if n then (.inf true, 0)
    else
      let s := xs.foldl (fun a x => (a.add false x).1) .zero
      if s.isZero then (.fin (!xs.isEmpty && xs.all Val.sign) 0 1, 0) else (s, 0)

/-- The greater or lesser of two values of which at most one is NaN (R216, R231). -/
def pickVal (max : Bool) (a b : Val) : Val := if max then (if a.ltz b then b else a) else (if b.ltz a then b else a)

/-- VMIN and VMAX (R216): the other operand where exactly one is NaN. -/
def minMax (max : Bool) (a b : Val) : Val := if a.isNan then b else if b.isNan then a else pickVal max a b

/-- The greatest or least value of a row; NaN where one is NaN (R231). -/
def rowExtreme (max : Bool) (xs : List Val) : Val :=
  if xs.any Val.isNan then .nan
  else match xs with
    | [] => .nan
    | x :: t => t.foldl (pickVal max) x

/-- The floating cells of R216 on a, b and d: the exact result and its conditions. -/
def FOp.apply (f : FOp) (rdn : Bool) (a b d : Val) : Val × Nat :=
  match f with
  | .add => addF rdn a b
  | .sub => addF rdn a b.neg
  | .mul => mulF a b
  | .fma => let p := mulF a b; let r := addF rdn p.1 d; (r.1, p.2 ||| r.2)
  | .min => (minMax false a b, 0)
  | .max => (minMax true a b, 0)
  | .abs => (a.abs, 0)
  | .neg => (a.neg, 0)

/-- The integer value of a code of an integer format (R119). -/
def Fmt.intOf (f : Fmt) (code : Nat) : Int :=
  match f with
  | .uint8 => (code % 256 : Nat)
  | _ => sx code f.width

/-- The pattern that an integer cell writes in a format of w bits (R219). -/
def IOp.pattern (f : IOp) (w : Nat) (x y : Int) : Nat :=
  let px := codeOfInt w x
  let wx := codeOfInt 32 x
  let wy := codeOfInt 32 y
  let sh := (y % 32).toNat
  match f with
  | .add => codeOfInt w (x + y)
  | .sub => codeOfInt w (x - y)
  | .mul => codeOfInt w (x * y)
  | .and => Nat.land wx wy % 2 ^ w
  | .or => Nat.lor wx wy % 2 ^ w
  | .xor => Nat.xor wx wy % 2 ^ w
  | .shl => px * 2 ^ sh % 2 ^ w
  | .shr => px / 2 ^ sh
  | .sra => codeOfInt w (sx px w / 2 ^ sh)
  | .clz => leadingZeros w px
  | .popc => onesCount w px

/-- The exact result of VIADD, VISUB and VIMUL, against which IWRAP is judged (R215, R219). -/
def IOp.exact (f : IOp) (x y : Int) : Option Int :=
  match f with
  | .add => some (x + y)
  | .sub => some (x - y)
  | .mul => some (x * y)
  | _ => none

/-- VCMP (R221): false where an operand is NaN, NE the complement of EQ. -/
def VCond.holds (k : VCond) (a b : Val) : Bool :=
  match k with
  | .eq => a.eqv b
  | .ne => !a.eqv b
  | .lt => a.lt b
  | .le => a.lt b || a.eqv b

/-! ## Operands of an entry -/

/-- Scalar k of an entry. -/
def Entry.sc (x : Entry) (k : Nat) : Nat := x.scalars.getD k 0

/-- The handle form of the second source is used: a handle stands in it (R201, R209). -/
def Entry.hasB (x : Entry) : Bool := decide (3 ≤ x.handles.length)

/-- A handle's format as an element of the vector engine reads (R208): the value of element n. -/
def valAt (m : Mem) (h : HandleBits) (n : Nat) : Val := (hFormat h).value (readElem m h n)

/-- The scale of element n of a handle; 1 where BLK is 0 (R132, R225). -/
def scaleAt (m : Mem) (h : HandleBits) (n : Nat) : Val :=
  if hBlk h = 0 then .one else (hScaleFormat h).value (readLE m (hScaleAddr h n) (hScaleBytes h))

/-- The rounding mode of Put for an element index (R127, R129, R208, R210). -/
def Entry.mode (x : Entry) (index : Nat) : Mode := modeOf (bits x.fpctl.toNat 2 0) x.seed index

/-- The mode is RDN (R216). -/
def Entry.rdn (x : Entry) : Bool := bits x.fpctl.toNat 2 0 == 3

/-- A scalar read as INT32 or as FP32 (R209). -/
def scalarVal (asInt : Bool) (v : Nat) : Val := if asInt then Fmt.int32.value v else Fmt.fp32.value v

/-- The global index of destination element n (R210): the descriptor's words stand in the scalars from 0 on;
none selects the local index. -/
def Entry.globalIndex (x : Entry) (n : Nat) : Nat :=
  let hd := x.h 0
  let i0 := n % hD0 hd
  let i1 := n / hD0 hd % hD1 hd
  let i2 := n / hD0 hd / hD1 hd
  (match x.scalars with
   | b0 :: b1 :: p1 :: p2 :: _ => b0 + 2 ^ 32 * b1 + i0 + p1 * i1 + p2 * i2
   | _ => n) % 2 ^ 60

/-- The index a cell rounds with (R210). -/
def Entry.roundIndex (k : VKind) (x : Entry) (n : Nat) : Nat :=
  match k with
  | .cvt _ | .qnt | .dqt | .rng | .drop => x.globalIndex n
  | _ => n

/-! ## Put -/

/-- Put(n, v) of R208 with SAT where the cell adds it, and the conditions already raised for the element. -/
def Work.put (w : Work) (k : VKind) (n : Nat) (v : Val) (sat : Bool) (fl : Nat) : Work :=
  let hd := w.x.h 0
  let r := round (hFormat hd) (w.x.mode (w.x.roundIndex k n)) sat v
  let w := w.flag (fl ||| r.flags) (hElem hd n).1
  { w with ws := w.ws.put hd n r.code }

/-- Write a pattern to destination element n (R226). -/
def Work.pattern (w : Work) (n v : Nat) : Work := { w with ws := w.ws.put (w.x.h 0) n v }

/-- Poison the row of destination element n where a source was poisoned (R213). -/
def Work.poisonIf (w : Work) (p : Bool) (n : Nat) : Work := if p then w.poisonRow (n / hD0 (w.x.h 0)) else w

/-! ## Element-wise cells -/

/-- The elements of the sources that destination element n takes (R206, R208, R228, R229). -/
def sourceElem (k : VKind) (x : Entry) (i n : Nat) : Nat :=
  match k with
  | .bcast => 0
  | .gath => n
  | .scat => n
  | _ => hBroadcast (x.h i) (x.h 0) n

/-- The reads that do not depend on an index, for destination element n: the sources, and the scale of VDQT. -/
def plainReads (k : VKind) (x : Entry) (n : Nat) : List Access :=
  let src := (List.range (x.handles.length - 1)).map (fun i => readOf (x.h (i + 1)) (sourceElem k x (i + 1) n))
  match k with
  | .dqt => if hBlk (x.h 1) = 0 then src else src ++ [scaleReadOf (x.h 1) (sourceElem k x 1 n)]
  | _ => src

/-- The value of source i at destination element n, or the scalar in its place (R208, R209). -/
def srcVal (w : Work) (k : VKind) (i n : Nat) (asInt : Bool) : Val :=
  if i < w.x.handles.length then valAt w.c.mem (w.x.h i) (sourceElem k w.x i n)
  else scalarVal asInt (w.x.sc 0)

/-- The read of hd as a source (R212). VMSEL.M leaves the full/empty bit of an element that it does not touch (R222):
its read of hd waits as hd's FEM says, and clears nothing (DEDUCED, log 85). -/
def destReads (w : Work) (k : VKind) (n : Nat) : List Access :=
  let a := readOf (w.x.h 0) n
  match k with
  | .arith .fma => [a]
  | .sel true => if (srcVal w k 2 n false).isZero then [{ a with fem := min 1 a.fem }] else [a]
  | _ => []

/-- The integer of source i at destination element n, or the INT32 scalar (R209, R219). -/
def srcInt (w : Work) (k : VKind) (i n : Nat) : Int :=
  if i < w.x.handles.length then (hFormat (w.x.h i)).intOf (readElem w.c.mem (w.x.h i) (sourceElem k w.x i n))
  else sx (w.x.sc 0) 32

/-- The result of one element of a cell that computes values (R216 to R225, R229, R236, R237). -/
def computeElem (w : Work) (k : VKind) (n : Nat) : Work :=
  let x := w.x
  let hd := x.h 0
  let isInt := (hFormat hd).isInt
  match k with
  | .arith f =>
    let r := f.apply x.rdn (srcVal w k 1 n false) (srcVal w k 2 n false) (valAt w.c.mem hd n)
    w.put k n r.1 false r.2
  | .trans f =>
    let r := f.apply (srcVal w k 1 n false)
    w.put k n r.1 false r.2
  | .int f =>
    let a := srcInt w k 1 n
    let b := srcInt w k 2 n
    let p := f.pattern (hBits hd) a b
    let wrap := match f.exact a b with
      | some e => (hFormat hd).intOf p != e
      | none => false
    { w.pattern n p with stat := w.stat ||| (if wrap then 8 else 0) }
  | .bilv three =>
    let a := codeOfInt 32 (srcInt w k 1 n)
    let b := codeOfInt 32 (srcInt w k 2 n)
    w.pattern n (if three then interleave3 a b else interleave2 a b)
  | .cmp cc => w.put k n (if cc.holds (srcVal w k 1 n false) (srcVal w k 2 n false) then .one else .zero) false 0
  | .sel masked =>
    if !(srcVal w k 2 n false).isZero then w.put k n (srcVal w k 1 n false) false 0
    else if masked then w
    else w.put k n (scalarVal isInt (x.sc 0)) false 0
  | .cvt sat => w.put k n (srcVal w k 1 n false) sat 0
  | .dqt =>
    let r := mulF (srcVal w k 1 n false) (scaleAt w.c.mem (x.h 1) (sourceElem k x 1 n))
    w.put k n r.1 false r.2
  | .bcast => w.put k n (srcVal w k 1 n isInt) false 0
  | .mov => w.pattern n (readElem w.c.mem (x.h 1) (sourceElem k x 1 n))
  | .rng =>
    let r := hash x.seed (counter 1 (x.globalIndex n))
    if isInt then w.pattern n (r % 2 ^ hBits hd)
    else
      let q := round (hFormat hd) .rtz false (.fin false r (2 ^ 32))
      let w := w.flag q.flags (hElem hd n).1
      w.pattern n q.code
  | .drop =>
    let r := hash x.seed (counter 2 (x.globalIndex n))
    let t := x.sc 4
    w.put k n (if r < t ∨ t = 2 ^ 32 - 1 then scalarVal isInt (x.sc 5) else .zero) false 0
  | _ => w

/-- One destination element of a cell without an index handle. An element of a source that VMSEL or VMSEL.M reads and does not take
counts among those that the destination depends on (R213; DESIGN CHOICE, log 116). -/
def plainElem (k : VKind) (w : Work) (n : Nat) : Work :=
  let a := w.access none (plainReads k w.x n ++ destReads w k n ++ [writeOf (w.x.h 0) n])
  match a.1.stop with
  | some _ => a.1
  | none => (computeElem a.1 k n).poisonIf a.2 n

/-- The value of an index element. -/
def indexAt (w : Work) (n : Nat) : Int := (hFormat (w.x.h 2)).intOf (readElem w.c.mem (w.x.h 2) n)

/-- One destination element of VGATH (R234). -/
def gatherElem (w : Work) (n : Nat) : Work :=
  let x := w.x
  let v := indexAt w n
  let bad := decide (v < 0 ∨ (hCount (x.h 1) : Int) ≤ v)
  let a := w.indexed (readOf (x.h 2) n) [readOf (x.h 2) n, writeOf (x.h 0) n]
    (if bad then [] else [readOf (x.h 1) v.toNat]) (if bad then some (hElem (x.h 2) n).1 else none)
  match a.1.stop with
  | some _ => a.1
  | none => (a.1.pattern n (readElem w.c.mem (x.h 1) v.toNat)).poisonIf a.2 n

/-- One destination element of VSHUF (R228): index element n of hb, whose shape R206 does not bind. -/
def shuffleElem (w : Work) (n : Nat) : Work :=
  let x := w.x
  let e := laneGroup x.handles
  let v := n / e * e + (indexAt w n % (2 ^ 32 : Int)).toNat % e
  let past := decide (hCount (x.h 1) ≤ v)
  let a := w.indexed (readOf (x.h 2) n) [readOf (x.h 2) n, writeOf (x.h 0) n] (if past then [] else [readOf (x.h 1) v]) none
  match a.1.stop with
  | some _ => a.1
  | none => (a.1.pattern n (if past then 0 else readElem w.c.mem (x.h 1) v)).poisonIf a.2 n

/-- One source element of VSCAT (R235). -/
def scatterElem (w : Work) (n : Nat) : Work :=
  let x := w.x
  let v := indexAt w n
  let bad := decide (v < 0 ∨ (hCount (x.h 0) : Int) ≤ v)
  let a := w.indexed (readOf (x.h 2) n) [readOf (x.h 1) n, readOf (x.h 2) n]
    (if bad then [] else [writeOf (x.h 0) v.toNat]) (if bad then some (hElem (x.h 2) n).1 else none)
  match a.1.stop with
  | some _ => a.1
  | none => (a.1.pattern v.toNat (readElem w.c.mem (x.h 1) n)).poisonIf a.2 v.toNat

/-- One destination byte of VPERMB (R227). -/
def permByte (w : Work) (j : Nat) : Work :=
  let x := w.x
  let v := (memRead w.c.mem (hByteAddr (x.h 2) j)).toNat
  let d := hByteAddr (x.h 0) j
  let past := decide (hBytes (x.h 1) ≤ v)
  let a := w.indexed (byteReadOf (x.h 2) j) [byteReadOf (x.h 2) j, bytesWriteOf d 1]
    (if past then [] else [byteReadOf (x.h 1) v]) none
  match a.1.stop with
  | some _ => a.1
  | none =>
    let b := if past then 0 else (memRead w.c.mem (hByteAddr (x.h 1) v)).toNat
    let u := { a.1 with ws := a.1.ws.putBytes d 1 b }
    if a.2 then u.poisonRow (j / hRowBytes (x.h 0)) else u

/-! ## Row cells -/

/-- The accesses of element i of row r of a row cell. -/
def rowAccess (k : VKind) (x : Entry) (r i : Nat) : List Access :=
  let src := rowSource k x
  let ha := readOf src (r * hD0 src + i)
  match k with
  | .red _ (some _) => [ha]
  | .red _ none => if i = 0 then [ha, writeOf (x.h 0) r] else [ha]
  | .norm => [ha, readOf (x.h 2) i, writeOf (x.h 0) (r * hD0 src + i)]
  | _ => [ha, writeOf (x.h 0) (r * hD0 src + i)]

/-- Make the accesses of a row in order; whether some read was poisoned. -/
def Work.accessRow (w : Work) (k : VKind) (r : Nat) : Work × Bool :=
  (List.range (hD0 (rowSource k w.x))).foldl (fun p i =>
    let a := p.1.access none (rowAccess k w.x r i)
    (a.1, p.2 || a.2)) (w, false)

/-- Round to FP32 under RNE within a row pass, as a value with its conditions. -/
def roundVal (v : Val) : Val × Nat := let r := round .fp32 .rne false v; (Fmt.fp32.value r.code, r.flags)

/-- VNORM of a row (R238): the outputs, each with its conditions, and the conditions of the row. An exact zero
x[i] - mu is +0 in every mode (DESIGN CHOICE, log 86). -/
def normRow (eps : Val) (centre : Bool) (xs gs : List Val) : List (Val × Nat) × Nat :=
  if xs.any (fun x => x.isNan || x.isInf) then
    (xs.map (fun _ => (Val.nan, 0)), nvIf (!xs.any Val.isNan))
  else
    let n : Val := .fin false 1 xs.length
    let s1 := (exactSum xs).1
    let s2 := (exactSum (xs.map (fun x => (x.mul x).1))).1
    let mu := if centre then roundVal (s1.mul n).1 else (.zero, 0)
    let v := roundVal ((s2.mul n).1.add false (mu.1.mul mu.1).1.neg).1
    let v0 := if v.1.isNeg ∨ v.1.isZero then Val.zero else v.1
    let ve := addF false v0 eps
    let rt := roundVal ve.1
    let rq := TOp.rsq.apply rt.1
    let q := roundVal rq.1
    ((xs.zip gs).map (fun p =>
      let a := mulF (p.1.add false mu.1.neg).1 q.1
      let b := mulF a.1 p.2
      (b.1, a.2 ||| b.2)),
     mu.2 ||| v.2 ||| ve.2 ||| rt.2 ||| rq.2 ||| q.2)

/-- VSMAX of a row (R239): the outputs, each with its conditions, the conditions of the row and whether SMZ is set. -/
def softmaxRow (c : Val) (xs : List Val) : List (Val × Nat) × Nat × Bool :=
  if xs.any Val.isNan then (xs.map (fun _ => (Val.nan, 0)), 0, false)
  else
    let m := rowExtreme true xs
    if m.isInf && m.sign then (xs.map (fun _ => (Val.zero, 0)), 0, true)
    else
      let es := xs.map (fun x =>
        let a := addF false x m.neg
        let b := mulF a.1 c
        let t := round .fp32 .rne false b.1
        let y := TOp.exp2.form t.code
        (y.1, a.2 ||| b.2 ||| t.flags ||| y.2))
      let s := exactSum (es.map (·.1))
      let r := roundVal s.1
      (es.map (fun e => let o := e.1.div r.1; (o.1, e.2 ||| o.2)), s.2 ||| r.2, false)

/-- VSCAN of a row (R233): the sums, each with its conditions. -/
def scanRow (excl : Bool) (xs : List Val) : List (Val × Nat) :=
  (List.range xs.length).map (fun i =>
    if excl && i == 0 then (Val.zero, 0) else exactSum (xs.take (if excl then i else i + 1)))

/-- Put a row's outputs. The conditions of an output are those of its element, the conditions of the row those of its
first element (R214; DEDUCED, log 39). -/
def Work.putRow (w : Work) (k : VKind) (r : Nat) (outs : List (Val × Nat)) (fl : Nat) : Work :=
  let d0 := hD0 (w.x.h 0)
  let w := w.flag fl (hElem (w.x.h 0) (r * d0)).1
  (outs.foldl (fun p v => (p.1.put k (r * d0 + p.2) v.1 false v.2, p.2 + 1)) (w, 0)).1

/-- Row r of a row cell, at its last step (R204, R231 to R233, R238, R239). -/
def rowWork (k : VKind) (w : Work) (r : Nat) : Work :=
  let x := w.x
  let src := rowSource k x
  let d0 := hD0 src
  let a := w.accessRow k r
  match a.1.stop with
  | some _ => a.1
  | none =>
    let w := a.1
    let xs := (List.range d0).map (fun i => valAt w.c.mem src (r * d0 + i))
    match k with
    | .red f q =>
      let v := match f with
        | .sum => exactSum xs
        | .max => (rowExtreme true xs, 0)
        | .min => (rowExtreme false xs, 0)
      (match q with
       | none => (w.put k r v.1 false v.2).poisonIf a.2 r
       | some _ =>
         let isInt := (hFormat src).isInt
         let e := round (if isInt then .int32 else .fp32) (x.mode r) false v.1
         let w := w.flag (v.2 ||| e.flags) 0
         if a.2 then { w with push := some (if isInt then 0x80000000 else 0x7FC00000)
                              met := w.met.map (fun m => (m.1, true)) }
         else { w with push := some e.code })
    | .scan excl =>
      (w.putRow k r (scanRow excl xs) 0).poisonIf a.2 (r * d0)
    | .norm =>
      let gs := (List.range d0).map (fun i => valAt w.c.mem (x.h 2) i)
      let o := normRow (Fmt.fp32.value (x.sc 0)) (x.sc 1 % 2 == 1) xs gs
      (w.putRow k r o.1 o.2).poisonIf a.2 (r * d0)
    | .smax =>
      let c := match x.scalars with
        | [] => Val.one
        | v :: _ => Fmt.fp32.value v
      let o := softmaxRow c xs
      let w := w.putRow k r o.1 o.2.1
      { w with stat := w.stat ||| (if o.2.2 then 4 else 0) }.poisonIf a.2 (r * d0)
    | _ => w

/-! ## VQNT -/

/-- The largest finite magnitude of a format (R224). -/
def Fmt.largest (f : Fmt) : Val :=
  match f with
  | .int8 => Val.ofInt 127
  | .int4 => Val.ofInt 7
  | _ => f.value f.maxCode

/-- The scale code of a block, its value as a divisor, and the conditions (R224). -/
def quantScale (f sf : Fmt) (xs : List Val) : Nat × Option Val × Nat :=
  if xs.any (fun x => x.isNan || x.isInf) then (sf.nan?.getD 0, none, nvIf (!xs.any Val.isNan))
  else
    let amax := rowExtreme true (xs.map Val.abs)
    let r := if amax.isZero then round sf .rne false .one else round sf .rup false (amax.div f.largest).1
    (r.code, some (sf.value r.code), if amax.isZero then 0 else r.flags)

/-- Block j of row r of VQNT: its elements from lo up to hi in the row (R224). -/
def quantBlock (w : Work) (r j : Nat) : Work :=
  let x := w.x
  let hd := x.h 0
  let b := hBlock hd
  let base := r * hD0 hd + j * b
  let ns := List.range' base (min b (hD0 hd - j * b))
  let a := ns.foldl (fun (p : Work × Bool) n =>
    let scale := if n = base then [bytesWriteOf (hScaleAddr hd n) (hScaleBytes hd)] else []
    let q := p.1.access none (readOf (x.h 1) (hBroadcast (x.h 1) hd n) :: writeOf hd n :: scale)
    (q.1, p.2 || q.2)) (w, false)
  match a.1.stop with
  | some _ => a.1
  | none =>
    let w := a.1
    let xs := ns.map (fun n => valAt w.c.mem (x.h 1) (hBroadcast (x.h 1) hd n))
    let s := quantScale (hFormat hd) (hScaleFormat hd) xs
    let w := w.flag s.2.2 (hElem hd base).1
    let w := { w with ws := w.ws.putBytes (hScaleAddr hd base) (hScaleBytes hd) s.1 }
    let w := (ns.zip xs).foldl (fun (u : Work) p =>
      let q := match s.2.1 with
        | none => (Val.nan, 0)
        | some v => p.2.div v
      u.put .qnt p.1 q.1 true q.2) w
    w.poisonIf a.2 base

/-- Step s of VQNT (R224). -/
def quantStep (w : Work) (s : Nat) : Work :=
  let x := w.x
  let per := quantBlocks x
  let t := s % quantRowSteps x
  let nb := ceilDiv (hD0 (x.h 0)) (hBlock (x.h 0))
  (List.range' (t * per) (min per (nb - t * per))).foldl (fun u j => quantBlock u (s / quantRowSteps x) j) w

/-! ## A step -/

/-- Fold over numbers, stopping where the work has stopped. -/
def Work.each (w : Work) (ns : List Nat) (f : Work → Nat → Work) : Work :=
  ns.foldl (fun u n => match u.stop with
    | some _ => u
    | none => f u n) w

/-- The elements of step s where each step takes e of n (R202). -/
def stepElems (s e n : Nat) : List Nat := List.range' (s * e) (min e (n - s * e))

/-- The work of step s of a vector instruction (R202, R204). -/
def vWork (k : VKind) (w : Work) (s : Nat) : Work :=
  let x := w.x
  let e := laneGroup x.handles
  let w := match k with
    | .qnt => quantStep w s
    | .permb => w.each (stepElems s 256 (hBytes (x.h 0))) permByte
    | .scat => w.each (stepElems s e (hCount (x.h 1))) scatterElem
    | .gath => w.each (stepElems s e (hCount (x.h 0))) gatherElem
    | .shuf => w.each (stepElems s e (hCount (x.h 0))) shuffleElem
    | .red .. | .scan _ | .norm | .smax =>
      if s % rowSteps k x + 1 = rowSteps k x then rowWork k w (s / rowSteps k x) else w
    | _ => w.each (stepElems s e (hCount (x.h 0))) (plainElem k)
  { w with rows := w.rows ++ w.c.vrows.filter (w.ws.inRow (x.h 0)) }.poisonRows (x.h 0)

/-- The flags that a vector step sets (R214, R215), the poison it has met so far, and the rows poisoned so far
(R213). -/
def vSet (w : Work) (c : Core) : Core :=
  let c := (c.setXf w.flags).setVstat w.stat
  { c with
    vrows := w.rows.foldl setAdd c.vrows
    vmet := (joinMet (c.vmet.map (fun m => (m.1.toNat, m.2))) w.met).map
             (fun m => (BitVec.ofNat 32 m.1, m.2)) }

/-- What step s of a vector instruction does, alone in its core cycle or with other engines (R205). -/
def vOut (y : Option Cycle) (c : Core) (x : Entry) (k : VKind) (s : Nat) : StepOut :=
  (vWork k (Work.start y c .V x) s).finish (match k with
    | .red _ q => q
    | _ => none) vSet

/-- The step that MPC names when step s faults: the first step of its row in a row instruction (R204). -/
def vFaultStep (k : VKind) (x : Entry) (s : Nat) : Nat :=
  if k.isRow then s - s % rowSteps k x else s

/-- Every step of the head instruction of V has taken effect: it completes, or reports the poison it met
(R213). -/
def Core.vEnd (c : Core) : Core :=
  match c.vmet with
  | some (a, true) => c.freeze .V 0x0A 3 a
  | _ => c.complete .V

/-- The engine begins its head instruction no earlier than its token waits allow (R80). -/
def Core.mayBegin (c : Core) (x : Entry) : Bool := x.waits.all (waitDone c)

/-- One step of the vector engine, where it can make one (R202, R204). -/
def Core.vStep (y : Option Cycle) (c : Core) : Option Core :=
  let g := c.engV
  match g.queue with
  | [] => none
  | x :: _ =>
    if g.frozen || c.enginesHold || !c.mayBegin x then none
    else
      let n := entrySteps x
      let s := g.mpc.toNat
      if n ≤ s then some c.vEnd
      else
        let k := (vKind x.instr).getD .mov
        match vOut y c x k s with
        | .wait => none
        | .fault a b v =>
          some (({ c with engV := { g with mpc := BitVec.ofNat 32 (vFaultStep k x s), pushing := none } }).freeze
            .V a b (BitVec.ofNat 32 v))
        | .full q v => some { c with engV := { g with pushing := some (q, BitVec.ofNat 32 v) } }
        | .done c' =>
          let c' := { c' with engV := { c'.engV with mpc := BitVec.ofNat 32 (s + 1), pushing := none } }
          some (if n ≤ s + 1 then c'.vEnd else c')

/-- V_STEP (R204). -/
def execVStep (p : Nat) (s : State) : Out :=
  onCore s p (fun c s => if s.stilled then none else (c.vStep none).map (s.setCore p))

end Sys2Proof.Machine
end

