-- ==== Sys2Proof/Machine/LocalCopy.lean ====
section
/-! DEFINITION. The local copy engine (09 R271 to R274): dispatch of XCPY, XTRN and XFILL, and L_STEP. -/

namespace Sys2Proof.Machine

/-! ## Dispatch -/

/-- The checks of a local copy at dispatch: R21, then the formats (SUB 5), then the shapes (SUB 6), which
are not made where a handle describes no elements (R21, R272, R273). -/
def copyCheck (i : Instr) (h : Hdr) (us : List HandleUse) (xs : List Nat) (fmtOk shapeOk : Bool)
    (c : Core) : Dispatch :=
  let hs := us.map (·.h)
  match handleTrap c (mainWord i) us with
  | some t => .trap t
  | none =>
    if !fmtOk then .trap (c.precise 0x01 5 (mainWord i))
    else if !hs.any hEmpty && !shapeOk then .trap (c.precise 0x01 6 (mainWord i))
    else .entry c (entryOf i h hs xs c)

/-- XCPY (R272). -/
def execXcpy (h : Hdr) (d : BitVec 4) (ss : BitVec 4) (s : State) : Out :=
  dispatch (.xcpy h d ss) h .L (computeOnly (.xcpy h d ss)) (fun c =>
    let hd := c.handle d.toNat
    let hs := c.handle ss.toNat
    copyCheck (.xcpy h d ss) h [⟨hd, true⟩, ⟨hs, false⟩] [] (hFmt hd == hFmt hs) (hCount hd == hCount hs) c) s

/-- XTRN (R273). -/
def execXtrn (h : Hdr) (d : BitVec 4) (ss : BitVec 4) (s : State) : Out :=
  dispatch (.xtrn h d ss) h .L (computeOnly (.xtrn h d ss)) (fun c =>
    let hd := c.handle d.toNat
    let hs := c.handle ss.toNat
    copyCheck (.xtrn h d ss) h [⟨hd, true⟩, ⟨hs, false⟩] [] (hFmt hd == hFmt hs && decide (8 ≤ hBits hd))
      (hD0 hd == hD1 hs && hD1 hd == hD0 hs && hD2 hd == hD2 hs) c) s

/-- XFILL (R274). -/
def execXfill (h : Hdr) (d : BitVec 4) (a : BitVec 6) (s : State) : Out :=
  dispatch (.xfill h d a) h .L (computeOnly (.xfill h d a)) (fun c =>
    copyCheck (.xfill h d a) h [⟨c.handle d.toNat, true⟩] [(c.reg a.toNat).toNat] true true c) s

/-! ## Steps -/

/-- The element of the source that element n of the destination receives (R272, R273). -/
def copySource (x : Entry) (n : Nat) : Nat :=
  match x.instr with
  | .xtrn .. =>
    let d := x.h 0
    let s := x.h 1
    let i0 := n % hD0 d
    let i1 := n / hD0 d % hD1 d
    let i2 := n / hD0 d / hD1 d
    i1 + hD0 s * (i0 + hD1 s * i2)
  | _ => n

/-- The destination words that receive a byte of a poisoned source word (R271): byte by byte where elements
are whole bytes, else every word of the element. -/
def copyPoison (c : Core) (x : Entry) (n m : Nat) : List Nat :=
  let d := x.h 0
  let s := x.h 1
  let bad := (List.range (hElemBytes s m)).filter (fun k => setHas c.poison (hElemByte s m k / 8))
  if bad = [] then []
  else if 8 ≤ hBits d then bad.map (fun k => hElemByte d n k / 8)
  else (hElemAddrs d n).map (· / 8)

/-- One destination element of a local copy. -/
def copyElem (w : Work) (n : Nat) : Work :=
  let x := w.x
  match x.instr with
  | .xfill .. =>
    let a := w.access none [writeOf (x.h 0) n]
    (match a.1.stop with
     | some _ => a.1
     | none => a.1.pattern n (x.sc 0 % 2 ^ hBits (x.h 0)))
  | _ =>
    let m := copySource x n
    let a := w.access none [readOf (x.h 1) m, writeOf (x.h 0) n]
    match a.1.stop with
    | some _ => a.1
    | none =>
      let u := a.1.pattern n (readElem w.c.mem (x.h 1) m)
      { u with ws := { u.ws with psn := (copyPoison w.c x n m).foldl setAdd u.ws.psn } }

/-- The elements of step s of a local copy: those whose first byte lies in its 512 destination bytes
(R271). -/
def copyElems (x : Entry) (s : Nat) : List Nat :=
  let b := hBits (x.h 0)
  let lo := ceilDiv (4096 * s) b
  List.range' lo (min (ceilDiv (4096 * (s + 1)) b) (hCount (x.h 0)) - lo)

/-- What a step of the local copy engine notes: the first poisoned element it met (R271). -/
def lSet (w : Work) (c : Core) : Core :=
  { c with lmet := match c.lmet with
      | some a => some a
      | none => w.met.map (fun m => BitVec.ofNat 32 m.1) }

/-- What step s of a local copy does, alone in its core cycle or with other engines (R32). -/
def lOut (y : Option Cycle) (c : Core) (x : Entry) (s : Nat) : StepOut :=
  ((Work.start y c .L x).each (copyElems x s) copyElem).finish none lSet

/-- Every step of the head instruction of L has taken effect: it completes, or reports the poison it met
(R213, R271). -/
def Core.lEnd (c : Core) (x : Entry) : Core :=
  match c.lmet with
  | some a => if hPois (x.h 1) then c.complete .L else c.freeze .L 0x0A 3 a
  | none => c.complete .L

/-- One step of the local copy engine, where it can make one (R271). -/
def Core.lStep (y : Option Cycle) (c : Core) : Option Core :=
  let g := c.engL
  match g.queue with
  | [] => none
  | x :: _ =>
    if g.frozen || c.enginesHold || !c.mayBegin x then none
    else
      let n := entrySteps x
      let s := g.mpc.toNat
      if n ≤ s then some (c.lEnd x)
      else
        match lOut y c x s with
        | .wait => none
        | .full .. => none
        | .fault a b v => some (c.freeze .L a b (BitVec.ofNat 32 v))
        | .done c' =>
          let c' := { c' with engL := { c'.engL with mpc := BitVec.ofNat 32 (s + 1) } }
          some (if n ≤ s + 1 then c'.lEnd x else c')

/-- L_STEP (R271). -/
def execLStep (p : Nat) (s : State) : Out :=
  onCore s p (fun c s => if s.stilled then none else (c.lStep none).map (s.setCore p))

end Sys2Proof.Machine
end

