-- ==== Sys2Proof/Machine/MatrixNum.lean ====
section
/-! DEFINITION. The arithmetic of the matrix engine (04 R123, R133 to R138): products, group sums, scaling
and accumulation of one tile element. -/

namespace Sys2Proof.Machine

/-- Prod(x, fx, y, fy) of 08: logarithms are added where both formats are LNS (R123), integers multiplied
exactly where both are integer formats (R138), else the exact product of the values; NV where 0 meets an
infinity. A zero product carries the signs (R135). -/
def prodOf (fx fy : Fmt) (x y : Nat) : Val × Nat :=
  match fx.lns?, fy.lns? with
  | some (p, _), some (q, _) =>
    let sx' := (fx.value x).sign
    let sy' := (fy.value y).sign
    if (fx.value x).isNan || (fy.value y).isNan then (.nan, 0)
    else match lnsLog? p fx.width x, lnsLog? q fy.width y with
      | some l, some m => (lnsValue (bits x (fx.width - 1) (fx.width - 1) != bits y (fy.width - 1) (fy.width - 1)) (l + m), 0)
      | _, _ => (.fin (sx' != sy') 0 1, 0)
  | _, _ =>
    if fx.isInt && fy.isInt then (Val.ofInt (fx.intOf x * fy.intOf y), 0)
    else mulF (fx.value x) (fy.value y)

/-- The group length and window of a profile (R134). -/
def profile (np : Nat) : Nat × Nat :=
  match np with
  | 1 => (32, 48)
  | 2 => (16, 32)
  | _ => (64, 64)

/-- The aligned part of a product within the window (R135). -/
def windowed (w : Nat) (e : Int) (p : Val) : Int :=
  match p with
  | .fin s n d =>
    let m := mul2 n d ((w : Int) - 1 - e)
    if s then -((m.1 / m.2 : Nat) : Int) else ((m.1 / m.2 : Nat) : Int)
  | _ => 0

/-- The binade of a nonzero finite product. -/
def Val.binade (v : Val) : Int :=
  match v with
  | .fin _ n d => floorLog2 n d
  | _ => 0

/-- The sum G of a group of products (R135), and its conditions. -/
def groupSum (w : Nat) (ps : List Val) : Val × Nat :=
  let pinf := ps.any (fun p => p.isInf && !p.sign)
  let ninf := ps.any (fun p => p.isInf && p.sign)
  if ps.any Val.isNan || (pinf && ninf) then (.nan, nvIf (pinf && ninf))
  else if pinf then (.inf false, 0)
  else if ninf then (.inf true, 0)
  else
    match ps.filter (fun p => !p.isZero) with
    | [] => (.fin (ps.all Val.sign) 0 1, 0)
    | p :: t =>
      let e := t.foldl (fun m q => max m q.binade) p.binade
      let q := (p :: t).foldl (fun a x => a + windowed w e x) 0
      if q = 0 then (.zero, 0)
      else
        let r := round .fp32 .rne false (.dyadic (decide (q < 0)) q.natAbs (e - w + 1))
        (Fmt.fp32.value r.code, r.flags)

/-- What scaling or accumulating gives: a value, the conditions and whether ZXS is set. -/
structure Scaled where
  v : Val
  flags : Nat
  zxs : Bool
deriving DecidableEq, Repr

/-- Gs of R133; the rounding of S sets no flag (R259). -/
def scaleSum (g sa sb : Val) : Scaled :=
  let s := Fmt.fp32.value (round .fp32 .rne false (sa.mul sb).1).code
  if g.isNan || s.isNan then ⟨.nan, 0, false⟩
  else if g.isZero then ⟨.fin (g.sign != (sa.sign != sb.sign)) 0 1, 0, s.isInf⟩
  else
    let p := mulF g s
    let r := round .fp32 .rne false p.1
    ⟨Fmt.fp32.value r.code, p.2 ||| r.flags, false⟩

/-- Where the groups of a pass start, and how long they are (R135): every multiple of n (none where n is 0)
and every block boundary. -/
def groupsOf (ka n ba bw : Nat) : List (Nat × Nat) :=
  let starts := (List.range ka).filter (fun k =>
    k == 0 || (n != 0 && k % n == 0) || (ba != 0 && k % ba == 0) || (bw != 0 && k % bw == 0))
  (starts.zip (starts.drop 1 ++ [ka])).map (fun p => (p.1, p.2 - p.1))

/-- An accumulation under way: the FP32 or INT32 code, the conditions, ZXS and ISAT. -/
structure Acc where
  code : Nat
  flags : Nat
  zxs : Bool
  isat : Bool
deriving DecidableEq, Repr

/-- acc := Round(acc + x, FP32, RNE) (R136, R137). -/
def Acc.add (a : Acc) (x : Val) (fl : Nat) (z : Bool) : Acc :=
  let s := addF false (Fmt.fp32.value a.code) x
  let r := round .fp32 .rne false s.1
  { a with code := r.code, flags := a.flags ||| fl ||| s.2 ||| r.flags, zxs := a.zxs || z }

/-- acc := acc + x, saturating to INT32 (R138). -/
def Acc.addInt (a : Acc) (x : Int) : Acc :=
  let t := sx a.code 32 + x
  let v := min (max t (-(2 ^ 31 : Int))) (2 ^ 31 - 1)
  { a with code := codeOfInt 32 v, isat := a.isat || v != t }

/-- The fused steps of profile 3 from a starting code (R137). -/
def fusedSteps (a : Acc) (ps : List Val) : Acc := ps.foldl (fun a p => a.add p 0 false) a

/-- The integer value of an exact integer product. -/
def Val.toInt : Val → Int
  | .fin s n _ => if s then -(n : Int) else n
  | _ => 0

/-- One tile element over one pass (R135 to R138): the products with their conditions already in `a`, the
block lengths, the scales by k where either operand is scaled, and whether the pair accumulates in INT32. -/
def accumulate (np : Nat) (int : Bool) (ba bw : Nat) (scales : Option (Nat → Val × Val)) (ps : List Val)
    (a : Acc) : Acc :=
  let n := if np = 3 then 0 else (profile np).1
  if int then
    if np = 3 then ps.foldl (fun a p => a.addInt p.toInt) a
    else (groupsOf ps.length n ba bw).foldl (fun a g =>
      a.addInt (((ps.drop g.1).take g.2).foldl (fun t p => t + p.toInt) 0)) a
  else
    match np, scales with
    | 3, none => fusedSteps a ps
    | 3, some sc =>
      (groupsOf ps.length 0 ba bw).foldl (fun a g =>
        let p := fusedSteps ⟨0x80000000, 0, false, false⟩ ((ps.drop g.1).take g.2)
        let x := scaleSum (Fmt.fp32.value p.code) (sc g.1).1 (sc g.1).2
        a.add x.v (p.flags ||| x.flags) x.zxs) a
    | _, _ =>
      (groupsOf ps.length n ba bw).foldl (fun a g =>
        let s := groupSum (profile np).2 ((ps.drop g.1).take g.2)
        match scales with
        | none => a.add s.1 s.2 false
        | some sc =>
          let x := scaleSum s.1 (sc g.1).1 (sc g.1).2
          a.add x.v (s.2 ||| x.flags) x.zxs) a

end Sys2Proof.Machine
end

