-- ==== Sys2Proof/Machine/Matrix.lean ====
section
/-! DEFINITION. Class 0xA: dispatch of the matrix cells (08 R240, R241), what their steps do (R242 to R269),
and M_STEP. Instructions begin in queue order, and their work may overlap (R247, log 8). -/

namespace Sys2Proof.Machine

/-! ## Dispatch -/

/-- The checks of a matrix instruction that names a handle (R21, R241), and its entry. -/
def matCheck (i : Instr) (h : Hdr) (us : List HandleUse) (xs : List Nat) (fmtOk shapeOk : HandleBits → Bool)
    (c : Core) : Dispatch :=
  let hs := us.map (·.h)
  match handleTrap c (mainWord i) us with
  | some t => .trap t
  | none =>
    if !hs.all fmtOk then .trap (c.precise 0x01 5 (mainWord i))
    else if !hs.any hEmpty && !hs.all shapeOk then .trap (c.precise 0x01 6 (mainWord i))
    else .entry c (entryOf i h hs xs c)

/-- Dispatch of a matrix instruction with one handle. -/
def matOp (i : Instr) (h : Hdr) (x : BitVec 4) (dest : Bool) (xs : Core → List Nat)
    (fmtOk shapeOk : HandleBits → Bool) (s : State) : Out :=
  dispatch i h .M (computeOnly i)
    (fun c => matCheck i h [⟨c.handle x.toNat, dest⟩] (xs c) fmtOk shapeOk c) s

/-- Dispatch of a matrix instruction without a handle. -/
def matPlain (i : Instr) (h : Hdr) (s : State) : Out :=
  dispatch i h .M (computeOnly i) (fun c => .entry c (entryOf i h [] [] c)) s

/-- Extents within limits (R241). -/
def shapeWithin (d0 d1 : Nat) (h : HandleBits) : Bool := decide (hD0 h ≤ d0 ∧ hD1 h ≤ d1 ∧ hD2 h = 1)

/-- Formats 0 to 11 (R241). -/
def operandCode (h : HandleBits) : Bool := hFmt h ≤ 11

/-- Formats 0 to 2 (R241). -/
def scaleCode (h : HandleBits) : Bool := hFmt h ≤ 2

/-- MCFG (R254). -/
def execMcfg (h : Hdr) (m : BitVec 4) (k : BitVec 2) (s : State) : Out := matPlain (.mcfg h m k) h s

/-- MWL (R255). -/
def execMwl (h : Hdr) (x : BitVec 4) (s : State) : Out :=
  matOp (.mwl h x) h x false (fun _ => []) operandCode (shapeWithin 256 512) s

/-- MWS (R256). -/
def execMws (h : Hdr) (s : State) : Out := matPlain (.mws h) h s

/-- MMS (R258): the row origin is read at dispatch. -/
def execMms (h : Hdr) (x : BitVec 4) (k : BitVec 3) (p : BitVec 3) (ss : BitVec 6) (s : State) : Out :=
  matOp (.mms h x k p ss) h x false (fun c => [(c.reg ss.toNat).toNat]) operandCode (shapeWithin 256 256) s

/-- MMSZ (R258). -/
def execMmsz (h : Hdr) (x : BitVec 4) (k : BitVec 3) (p : BitVec 3) (ss : BitVec 6) (s : State) : Out :=
  matOp (.mmsz h x k p ss) h x false (fun c => [(c.reg ss.toNat).toNat]) operandCode (shapeWithin 256 256) s

/-- MSCL.C (R260). -/
def execMsclC (h : Hdr) (x : BitVec 4) (k : BitVec 3) (s : State) : Out :=
  matOp (.msclC h x k) h x false (fun _ => []) scaleCode (shapeWithin 512 256) s

/-- MSCL.R (R260). -/
def execMsclR (h : Hdr) (x : BitVec 4) (k : BitVec 3) (s : State) : Out :=
  matOp (.msclR h x k) h x false (fun _ => []) scaleCode (fun h => hD1 h == 1 && shapeWithin 256 1 h) s

/-- MSCL.K (R257). -/
def execMsclK (h : Hdr) (x : BitVec 4) (s : State) : Out :=
  matOp (.msclK h x) h x false (fun _ => []) scaleCode (fun h => hD1 h == 1 && shapeWithin 512 1 h) s

/-- MZA (R261). -/
def execMza (h : Hdr) (k : BitVec 3) (n : BitVec 3) (s : State) : Out := matPlain (.mza h k n) h s

/-- MRD (R262): its handle is a destination. -/
def execMrd (h : Hdr) (x : BitVec 4) (k : BitVec 3) (im : BitVec 1) (m : BitVec 2) (s : State) : Out :=
  matOp (.mrd h x k im m) h x true (fun _ => []) (fun _ => true) (shapeWithin 64 256) s

/-- MWR (R263). -/
def execMwr (h : Hdr) (x : BitVec 4) (k : BitVec 3) (im : BitVec 1) (s : State) : Out :=
  matOp (.mwr h x k im) h x false (fun _ => []) (fun _ => true) (shapeWithin 64 256) s

/-- MDRN (R264). -/
def execMdrn (h : Hdr) (s : State) : Out := matPlain (.mdrn h) h s

/-- MSTAT (R265). -/
def execMstat (h : Hdr) (n : BitVec 2) (s : State) : Out := matPlain (.mstat h n) h s

/-! ## Tiles and planes -/

/-- T(r, c) of 08 for the first bank ab. -/
def tileAddr (ab r c : Nat) : Nat := 0x80000 + ab * 0x4000 + r * 256 + c * 4

/-- The reads of a tile row (R267: poison met there is always reported). -/
def tileReads (ab r : Nat) : List Access :=
  (List.range 64).map (fun c => { a := tileAddr ab r c, z := tileAddr ab r c + 3, n := 4, write := false, fem := 0, quiet := false })

/-- The write of a whole tile row. -/
def tileRowWrite (ab r : Nat) : Access := bytesWriteOf (tileAddr ab r 0) 256

/-- A tile element as bits. -/
def tileBits (m : Mem) (ab r c : Nat) : Nat := readLE m (tileAddr ab r c) 4

/-- Poison the words of a tile row (R267). -/
def WSet.poisonTile (w : WSet) (ab r : Nat) : WSet :=
  { w with psn := (List.range' (tileAddr ab r 0 / 8) 32).foldl setAdd w.psn }

/-- Poison a tile row where poison was met. -/
def Work.poisonTileIf (w : Work) (p : Bool) (ab r : Nat) : Work :=
  if p then { w with ws := w.ws.poisonTile ab r } else w

/-- Kp(f) of 08. -/
def passLength (f : Nat) : Nat :=
  match f with
  | 0 => 16
  | 1 | 2 => 64
  | 3 | 4 | 8 => 128
  | _ => 256

/-- The format of a code that R241 admits. -/
def fmtOf (code : Nat) : Fmt := (Fmt.ofCode code).getD .fp32

/-- +0 of a format (R242). -/
def zeroCode (f : Fmt) : Nat := (round f .rne false .zero).code

/-- The code of 1 in a format. -/
def oneCode (f : Fmt) : Nat := (round f .rne false .one).code

/-- The format of a plane's scales: E8F2, BF16, FP32 or FP16. -/
def planeScaleFmt (n : Nat) : Fmt :=
  match n with
  | 0 => .e8f2 | 1 => .bf16 | 2 => .fp32 | _ => .fp16

/-- The scale format number for a format code of MSCL.K (R257). -/
def scaleFmtOf (fmt : Nat) : Nat :=
  match fmt with
  | 0 => 2 | 1 => 1 | _ => 3

/-- Weight (k, c) of a plane (R242). -/
def Plane.weight (p : Plane) (k c : Nat) : Nat :=
  if k < p.kw then tabGet p.weights (256 * c + k) else zeroCode (fmtOf p.wfmt)

/-- The scale of weight (k, c), keyed 256 c + block (R255, R257). -/
def Plane.scale (p : Plane) (k c : Nat) : Val :=
  if p.block = 0 then .one else (planeScaleFmt p.sfmt).value (tabGet p.scales (256 * c + k / p.block))

/-- Note conditions that go to MSTAT (R259). -/
def Work.note (w : Work) (fl : Nat) : Work := { w with flags := w.flags ||| fl }

/-- Note ZXS (1) and ISAT (2). -/
def Work.noteStat (w : Work) (zxs isat : Bool) : Work :=
  { w with stat := w.stat ||| bit zxs ||| 2 * bit isat }

/-! ## Planes: MWL and MSCL.K -/

/-- A matrix step under way: its work and the engine's planes. -/
structure MWork where
  w : Work
  m : Matrix
deriving DecidableEq, Repr

/-- The blocks of a column of 256 weights that a pass can meet (R255, R257). -/
def columnBlocks (b : Nat) : Nat := ceilDiv 256 b

/-- Column c of MWL (R255): row j = 64 MEM + c of the handle. R255 and R132 give no scale for blocks at k >= D0: it is
1, as it is for the columns that the handle does not hold (DESIGN CHOICE, log 87). -/
def loadColumn (u : MWork) (c : Nat) : MWork :=
  let h := u.w.x.h 0
  let j := 64 * u.m.mem.toNat + c
  let d0 := hD0 h
  let b := hBlock h
  let nb := ceilDiv d0 b
  if u.w.stop.isSome then u
  else if hD1 h ≤ j then
    let z := zeroCode (hFormat h)
    let p := u.m.shadow
    let p := { p with weights := (List.range d0).foldl (fun t k => tabPut t (256 * c + k) z) p.weights
                      scales := (List.range (columnBlocks b)).foldl
                        (fun t k => tabPut t (256 * c + k) (oneCode (hScaleFormat h))) p.scales }
    { u with m := { u.m with shadow := p } }
  else
    let w := (List.range d0).foldl (fun (w : Work) k =>
      let n := k + d0 * j
      (w.access none (readOf h n :: (if b != 0 && k % b == 0 then [scaleReadOf h n] else []))).1) u.w
    let p := u.m.shadow
    let p := { p with
      weights := (List.range d0).foldl (fun t k => tabPut t (256 * c + k) (readElem w.c.mem h (k + d0 * j))) p.weights
      scales := (List.range (columnBlocks b)).foldl (fun t k =>
        tabPut t (256 * c + k) (if k < nb then readLE w.c.mem (hScaleAddr h (k * b + d0 * j)) (hScaleBytes h)
          else oneCode (hScaleFormat h))) p.scales }
    { w := w, m := { u.m with shadow := p } }

/-- The plane that the first step of MWL leaves before its columns (R255). -/
def Plane.loading (h : HandleBits) : Plane :=
  { state := .loading, wfmt := hFmt h, kw := hD0 h, weights := [], block := hBlock h, sfmt := hSfmt h
    scales := [], mark := .none }

/-- An MWL that describes no elements (R255). -/
def Plane.noWeights (h : HandleBits) : Plane :=
  { state := .loaded, wfmt := hFmt h, kw := 0, weights := [], block := 0, sfmt := 0, scales := [], mark := .none }

/-- The mark that a plane instruction sets for poison met through its handle (R267). -/
def markFor (h : HandleBits) : PoisonMark := if hPois h then .quiet else .loud

/-- Step s of MWL (R255): the mark stands from the last step on. -/
def loadStep (u : MWork) (s : Nat) : MWork :=
  let h := u.w.x.h 0
  let u := if s = 0 then { u with m := { u.m with shadow := Plane.loading h } } else u
  let u := (List.range' (8 * s) 8).foldl loadColumn u
  if s + 1 < 8 then u
  else
    let met := u.m.met.isSome || u.w.met.isSome
    { u with m := { u.m with shadow := { u.m.shadow with
        state := .loaded, mark := if met then markFor h else .none } } }

/-- MSCL.K (R257): every scale of the shadow plane; a handle without elements gives 1. -/
def rescale (u : MWork) : MWork :=
  let h := u.w.x.h 0
  let base := 64 * u.m.mem.toNat
  let d0 := if hEmpty h then 0 else hD0 h
  let w := (List.range 64).foldl (fun (w : Work) c =>
    if base + c < d0 then (w.access none [readOf h (base + c)]).1 else w) u.w
  let p := u.m.shadow
  let b := if p.block = 0 then 256 else p.block
  let nb := columnBlocks b
  let f := hFormat h
  let code := fun c => if base + c < d0 then readElem w.c.mem h (base + c) else oneCode f
  let mark := if w.met.isNone then p.mark
    else match p.mark with
      | .loud => .loud
      | _ => markFor h
  { w := w
    m := { u.m with shadow := { p with
      block := b, sfmt := scaleFmtOf (hFmt h), mark := mark
      scales := (List.range 64).foldl (fun t c =>
        (List.range nb).foldl (fun t k => tabPut t (256 * c + k) (code c)) t) [] } } }

/-! ## Streams -/

/-- The row origin of MMS and MMSZ (R258). -/
def rowOrigin (x : Entry) : Nat := x.sc 0 % 256

/-- The pair accumulates in INT32 (R258). -/
def intPair (h : HandleBits) (p : Plane) : Bool :=
  (hFormat h).isInt && (fmtOf p.wfmt).isInt && hBlk h == 0 && p.block == 0

/-- Tile element (r, c) of MMS or MMSZ (R258). -/
def streamElem (fresh : Bool) (np : Nat) (m : Mem) (h : HandleBits) (p : Plane) (ab row r c : Nat) : Acc :=
  let int := intPair h p
  let ka := hD0 h
  let ps := (List.range ka).map (fun k =>
    prodOf (hFormat h) (fmtOf p.wfmt) (readElem m h (k + ka * r)) (p.weight k c))
  let start := if fresh then (if int then 0 else 0x80000000) else tileBits m ab (row + r) c
  let scales := if hBlk h = 0 ∧ p.block = 0 then none
    else some (fun k => (scaleAt m h (k + ka * r), p.scale k c))
  accumulate np int (hBlock h) p.block scales (ps.map (·.1))
    ⟨start, ps.foldl (fun f q => f ||| q.2) 0, false, false⟩

/-- A plane's poison mark met again: loud where one meeting was (R267). -/
def joinMark : Option Bool → Option Bool → Option Bool
  | none, m => m
  | m, none => m
  | some a, some b => some (a || b)

/-- Row r of MMS or MMSZ (R258, R267). The row's elements are checked before its tile row (DESIGN CHOICE, log 118). -/
def streamRow (fresh : Bool) (np ab : Nat) (p : Plane) (w : Work) (r : Nat) : Work :=
  let h := w.x.h 0
  let ka := hD0 h
  let b := hBlock h
  let row := rowOrigin w.x
  let a := (List.range ka).foldl (fun (q : Work × Bool) k =>
    let n := k + ka * r
    let z := q.1.access none (readOf h n :: (if b != 0 && k % b == 0 then [scaleReadOf h n] else []))
    (z.1, q.2 || z.2)) (w, false)
  let t := a.1.access none ((if fresh then [] else tileReads ab (row + r)) ++ [tileRowWrite ab (row + r)])
  let w := t.1
  match w.stop with
  | some _ => w
  | none =>
    let w := (List.range 64).foldl (fun (w : Work) c =>
      let e := streamElem fresh np w.c.mem h p ab row r c
      let w := (w.note e.flags).noteStat e.zxs e.isat
      { w with ws := w.ws.putBytes (tileAddr ab (row + r) c) 4 e.code }) w
    let marked := match p.mark with
      | .none => none
      | .quiet => some false
      | .loud => some true
    { w with mark := joinMark w.mark marked }.poisonTileIf (a.2 || t.2 || marked.isSome) ab (row + r)

/-- Row r of MSCL.C or MSCL.R (R260, R267): `byRow` for .R. The tile row is checked before the row's elements (DESIGN CHOICE, log 118). -/
def scaleRow (byRow : Bool) (ab base : Nat) (w : Work) (r : Nat) : Work :=
  let h := w.x.h 0
  let cs := (List.range 64).filter (fun c => byRow || decide (base + c < hD0 h))
  let elem := fun c => if byRow then r else base + c + hD0 h * r
  let t := w.access none (tileReads ab r)
  let a := cs.foldl (fun (q : Work × Bool) c =>
    let z := q.1.access none [readOf h (elem c), bytesWriteOf (tileAddr ab r c) 4]
    (z.1, q.2 || z.2)) t
  let w := a.1
  match w.stop with
  | some _ => w
  | none =>
    let w := cs.foldl (fun (w : Work) c =>
      let p := mulF (Fmt.fp32.value (tileBits w.c.mem ab r c)) (valAt w.c.mem h (elem c))
      let v := round .fp32 .rne false p.1
      let w := w.note (p.2 ||| v.flags)
      { w with ws := w.ws.putBytes (tileAddr ab r c) 4 v.code }) w
    w.poisonTileIf a.2 ab r

/-- MRD's rounding mode (R262): the code of MF[1:0]. -/
def readMode (m n seed : Nat) : Mode :=
  match m with
  | 1 => .rtz
  | 2 => modeOf 4 seed n
  | _ => .rne

/-- Row r of MRD (R262, R267). A tile row past a7 is no element of the accumulators (R245): the step faults as at an
address outside the core-local ranges (DEDUCED, log 41), and before the row's elements (DESIGN CHOICE, log 118). -/
def readRow (ab : Nat) (asInt : Bool) (mode : Nat) (w : Work) (r : Nat) : Work :=
  let h := w.x.h 0
  let d0 := hD0 h
  let w := if 512 ≤ ab * 64 + r then { w with stop := some (.fault 0x0A 0 (tileAddr ab r 0)) } else w
  let t := w.access none (tileReads ab r)
  let w := (List.range d0).foldl (fun (w : Work) c => (w.access none [writeOf h (c + d0 * r)]).1) t.1
  match w.stop with
  | some _ => w
  | none =>
    let w := (List.range d0).foldl (fun (w : Work) c =>
      let n := c + d0 * r
      let v := (if asInt then Fmt.int32 else Fmt.fp32).value (tileBits w.c.mem ab r c)
      let q := round (hFormat h) (readMode mode n w.x.seed) (mode == 3) v
      let w := w.note q.flags
      { w with ws := w.ws.put h n q.code }) w
    if t.2 then w.poisonRow r else w

/-- Row r of MWR (R263, R267). -/
def writeRow (ab : Nat) (asInt : Bool) (w : Work) (r : Nat) : Work :=
  let h := w.x.h 0
  let d0 := hD0 h
  let a := (List.range d0).foldl (fun (q : Work × Bool) c =>
    let z := q.1.access none [readOf h (c + d0 * r), bytesWriteOf (tileAddr ab r c) 4]
    (z.1, q.2 || z.2)) (w, false)
  let w := a.1
  match w.stop with
  | some _ => w
  | none =>
    let w := (List.range d0).foldl (fun (w : Work) c =>
      let v := round (if asInt then .int32 else .fp32) .rne false (valAt w.c.mem h (c + d0 * r))
      let w := w.note v.flags
      { w with ws := w.ws.putBytes (tileAddr ab r c) 4 v.code }) w
    w.poisonTileIf a.2 ab r

/-- Row r of bank-relative zeroing (R261). -/
def zeroRow (ab : Nat) (w : Work) (r : Nat) : Work :=
  let w := (w.access none [tileRowWrite ab r]).1
  match w.stop with
  | some _ => w
  | none => { w with ws := w.ws.putBytes (tileAddr ab r 0) 256 0 }

/-! ## Steps -/

/-- The instruction-specific fault of step 0 (R255, R257, R258, R260): ETVAL. -/
def specificFault (x : Entry) (m : Matrix) : Option Nat :=
  let h := x.h 0
  let past := fun (ab row rows : Nat) => decide (512 < ab * 64 + row + rows)
  let stream := fun (k : Nat) =>
    if m.active.state ≠ .loaded then some 0
    else if min (passLength (hFmt h)) (passLength m.active.wfmt) < hD0 h then some (hD0 h)
    else if past k (rowOrigin x) (hD1 h) then some 0xA0000 else none
  match x.instr with
  | .mwl .. => if passLength (hFmt h) < hD0 h then some (hD0 h) else none
  | .msclK .. => if m.shadow.state = .loaded then none else some 0
  | .mms _ _ k _ _ => stream k.toNat
  | .mmsz _ _ k _ _ => stream k.toNat
  | .msclC _ _ k => if past k.toNat 0 (hD1 h) then some 0xA0000 else none
  | .msclR _ _ k => if past k.toNat 0 (hD0 h) then some 0xA0000 else none
  | _ => none

/-- The work of step s of a matrix instruction (R250). -/
def mWork (y : Option Cycle) (c : Core) (x : Entry) (s : Nat) : MWork :=
  let w := Work.start y c .M x
  let m := c.matrix
  let h := x.h 0
  let rows := fun (f : Work → Nat → Work) (n : Nat) => { w := w.each (stepElems s 8 n) f, m := m : MWork }
  let base := 64 * m.mem.toNat
  match x.instr with
  | .mcfg _ k g => { w := w, m := { m with gw := g, mem := BitVec.ofNat 3 k.toNat } }
  | .mwl .. => loadStep { w := w, m := m } s
  | .mws .. => { w := w, m := { m with active := m.shadow, shadow := m.active } }
  | .mms _ _ k p _ => rows (streamRow false p.toNat k.toNat m.active) (hD1 h)
  | .mmsz _ _ k p _ => rows (streamRow true p.toNat k.toNat m.active) (hD1 h)
  | .msclC _ _ k => rows (scaleRow false k.toNat base) (hD1 h)
  | .msclR _ _ k => rows (scaleRow true k.toNat base) (hD0 h)
  | .msclK .. => rescale { w := w, m := m }
  | .mza _ k n => rows (zeroRow k.toNat) (64 * (n.toNat + 1))
  | .mrd _ _ k i d =>
    let u := rows (readRow k.toNat (i == 1) d.toNat) (hD1 h)
    { u with w := u.w.poisonRows h }
  | .mwr _ _ k i => rows (writeRow k.toNat (i == 1)) (hD1 h)
  | .mdrn .. => { w := w, m := { m with active := .reset, shadow := .reset } }
  | .mstat .. => { w := { w with push := some c.mstatWord.toNat }, m := m }
  | _ => { w := w, m := m }

/-- The conditions of R128 as the sticky bits of MSTAT (R269). -/
def mstatBits (fl stat : Nat) : Nat :=
  8 * (fl % 2) + 4 * (fl / 4 % 8 * 4) + 4 * (stat / 2 % 2)

/-- What a matrix step sets beside its writes: planes, MSTAT, ZXS and the poison met (R252, R259, R267). -/
def mSet (m : Matrix) (w : Work) (c : Core) : Core :=
  let c := (c.setMstat (mstatBits w.flags w.stat)).setVstat (w.stat % 2)
  { c with matrix := { m with
      met := (joinMet (c.matrix.met.map (fun m => (m.1.toNat, m.2))) w.met).map
        (fun m => (BitVec.ofNat 32 m.1, m.2))
      mark := joinMark c.matrix.mark w.mark } }

/-- What step s of a matrix instruction does. -/
def mOut (y : Option Cycle) (c : Core) (x : Entry) (s : Nat) : StepOut :=
  match if s = 0 then specificFault x c.matrix else none with
  | some v => .fault 0x0A 5 v
  | none =>
    let u := mWork y c x s
    u.w.finish (entryQueue x) (mSet u.m)

/-- Every step of the head instruction of M has taken effect: PSN where it met poison, then it completes or
reports (R267). ETVAL is the first poisoned source, and 0 where only a plane's mark was met. -/
def Core.mEnd (c : Core) : Core :=
  match c.matrix.met, c.matrix.mark with
  | none, none => c.complete .M
  | m, k =>
    if (m.map (·.2)).getD false || k.getD false then (c.setMstat 128).freeze .M 0x0A 3 ((m.map (·.1)).getD 0)
    else (c.setMstat 128).complete .M

/-- An MWL without elements takes its plane effect as it completes (R255). -/
def Core.mEmpty (c : Core) (x : Entry) : Core :=
  match x.instr with
  | .mwl .. => { c with matrix := { c.matrix with shadow := Plane.noWeights (x.h 0) } }
  | _ => c

/-- One step of the head instruction of M, where it can make one (R252). A stream instruction has landed its last
writes before it completes (R248). -/
def Core.mStep (y : Option Cycle) (c : Core) : Option Core :=
  let g := c.engM
  match g.queue with
  | [] => none
  | x :: _ =>
    if g.frozen || c.enginesHold || !c.mayBegin x then none
    else
      let n := entrySteps x
      let s := g.mpc.toNat
      if n ≤ s then some ((if n = 0 then c.mEmpty x else c).mEnd)
      else
        match mOut y c x s with
        | .wait => none
        | .fault a b v => some ({ c with engM := { g with pushing := none } }.freeze .M a b (BitVec.ofNat 32 v))
        | .full q v => some { c with engM := { g with pushing := some (q, BitVec.ofNat 32 v) } }
        | .done c' =>
          let c' := { c' with engM := { c'.engM with mpc := BitVec.ofNat 32 (s + 1), pushing := none } }
          some (if n ≤ s + 1 ∧ matrixKind x.instr ≠ .stream then c'.mEnd else c')

/-! ## Overlap -/

/-- An access of a whole tile row. -/
def tileAccess (ab r : Nat) (write : Bool) : Access :=
  { a := tileAddr ab r 0, z := tileAddr ab r 0 + 255, n := 256, write := write, fem := 0, quiet := false }

/-- What step s of a matrix instruction reads and writes outside the planes (R251). -/
def mAccesses (c : Core) (x : Entry) (s : Nat) : List Access :=
  let h := x.h 0
  let base := 64 * c.matrix.mem.toNat
  let b := hBlock h
  let elem := fun (k n : Nat) => readOf h n :: (if b != 0 && k % b == 0 then [scaleReadOf h n] else [])
  let row := fun (r : Nat) => (List.range (hD0 h)).flatMap (fun k => elem k (k + hD0 h * r))
  let cols := fun (d : Nat) => (List.range 64).filter (fun c => decide (base + c < d))
  match x.instr with
  | .mwl .. => ((List.range' (base + 8 * s) 8).filter (fun j => decide (j < hD1 h))).flatMap row
  | .msclK .. => if hEmpty h then [] else (cols (hD0 h)).map (fun c => readOf h (base + c))
  | .mms _ _ k _ _ => (stepElems s 8 (hD1 h)).flatMap (fun r =>
      tileAccess k.toNat (rowOrigin x + r) false :: tileAccess k.toNat (rowOrigin x + r) true :: row r)
  | .mmsz _ _ k _ _ => (stepElems s 8 (hD1 h)).flatMap (fun r =>
      tileAccess k.toNat (rowOrigin x + r) true :: row r)
  | .msclC _ _ k => (stepElems s 8 (hD1 h)).flatMap (fun r =>
      tileAccess k.toNat r false :: tileAccess k.toNat r true ::
        (cols (hD0 h)).map (fun c => readOf h (base + c + hD0 h * r)))
  | .msclR _ _ k => (stepElems s 8 (hD0 h)).flatMap (fun r =>
      [tileAccess k.toNat r false, tileAccess k.toNat r true, readOf h r])
  | .mza _ k n => (stepElems s 8 (64 * (n.toNat + 1))).map (fun r => tileAccess k.toNat r true)
  | .mrd _ _ k _ _ => (stepElems s 8 (hD1 h)).flatMap (fun r =>
      tileAccess k.toNat r false :: (List.range (hD0 h)).map (fun c => writeOf h (c + hD0 h * r)))
  | .mwr _ _ k _ => (stepElems s 8 (hD1 h)).flatMap (fun r =>
      tileAccess k.toNat r true :: (List.range (hD0 h)).map (fun c => readOf h (c + hD0 h * r)))
  | _ => []

/-- The bytes that an access may concern: the 8-byte words that it touches, whose poison it reads or changes (R267),
whole granules where it waits for full/empty bits. -/
def Access.span (x : Access) : Nat × Nat :=
  let u := if x.write || x.fem == 0 then 8 else 16
  (min x.a x.z / u * u, (max x.a x.z + u) / u * u)

/-- Two accesses that R249 keeps in order: they meet, and one of them writes or clears. -/
def Access.meets (x y : Access) : Bool :=
  (x.write || y.write || x.fem == 2 || y.fem == 2) &&
  decide (x.span.1 < y.span.2 ∧ y.span.1 < x.span.2)

/-- The matrix instructions before position k of the queue that have begun, with the steps each has taken and
whether its work has ended. -/
def Core.begunBefore (c : Core) (k : Nat) : List (Entry × Nat × Bool) :=
  match c.engM.queue with
  | [] => []
  | x :: q =>
    ((x, c.engM.mpc.toNat, decide (0 < entrySteps x ∧ entrySteps x ≤ c.engM.mpc.toNat)) ::
      (q.zip c.matrix.ahead).map (fun p => (p.1, p.2.steps, p.2.ended))).take k

/-- An instruction may begin behind those before it (R247). -/
def mayFollow (x : Entry) (before : List (Entry × Nat × Bool)) : Bool :=
  let ended := fun (ks : List MatrixKind) =>
    before.all (fun b => b.2.2 || !ks.contains (matrixKind b.1.instr))
  match matrixKind x.instr with
  | .stream => ended [.stream, .swap, .serial]
  | .plane => ended [.plane, .swap, .serial] && hFem (x.h 0) == 0
  | .swap => ended [.stream, .plane, .swap, .serial]
  | .serial => false

/-- The hold of R249: step s meets an access that an earlier instruction has still to make. -/
def Core.mHolds (c : Core) (x : Entry) (s : Nat) (before : List (Entry × Nat × Bool)) : Bool :=
  let mine := mAccesses c x s
  let lo := mine.foldl (fun m a => min m a.span.1) (2 ^ 32)
  let hi := mine.foldl (fun m a => max m a.span.2) 0
  before.any (fun b =>
    !b.2.2 && (List.range' b.2.1 (entrySteps b.1 - b.2.1)).any (fun t =>
      (mAccesses c b.1 t).any (fun a =>
        decide (a.span.1 < hi ∧ lo < a.span.2) && mine.any (fun y => y.meets a))))

/-- What the instruction at position k of the queue of M has done, where it has begun, or may begin (R247). -/
def Core.aheadAt (c : Core) (k : Nat) (x : Entry) : Option Ahead :=
  match c.matrix.ahead[k - 1]? with
  | some a => if a.stopped || a.ended then none else some a
  | none =>
    if c.matrix.ahead.length + 1 == k && (c.engM.queue.take k).all c.mayBegin && c.mayBegin x &&
      mayFollow x (c.begunBefore k) then some { steps := 0, ended := false, stopped := false, met := none, mark := none }
    else none

/-- Note the progress of the instruction at position k. -/
def Core.setAhead (c : Core) (k : Nat) (a : Ahead) : Core :=
  { c with matrix := { c.matrix with ahead := c.matrix.ahead.take (k - 1) ++ a :: c.matrix.ahead.drop k } }

/-- One step of the instruction at position k of the queue of M, behind the head (R247, R249, R266): where its step
faults, the instruction waits until it is the head. -/
def Core.mAhead (y : Option Cycle) (c : Core) (k : Nat) : Option Core :=
  match c.engM.queue[k]? with
  | none => none
  | some x =>
    match if c.engM.frozen || c.enginesHold then none else c.aheadAt k x with
    | none => none
    | some a =>
      let n := entrySteps x
      if n ≤ a.steps then some ((c.mEmpty x).setAhead k { a with ended := true })
      else if c.mHolds x a.steps (c.begunBefore k) then none
      else
        match mOut y { c with matrix := { c.matrix with met := a.met, mark := a.mark } } x a.steps with
        | .done c' =>
          some ({ c' with matrix := { c'.matrix with met := c.matrix.met, mark := c.matrix.mark } }.setAhead k
            { steps := a.steps + 1, ended := decide (n ≤ a.steps + 1), stopped := false
              met := c'.matrix.met, mark := c'.matrix.mark })
        | _ => none

/-- M_STEP (R252): the instruction at position k of the queue takes a step; the head stands at 0. -/
def execMStep (p k : Nat) (s : State) : Out :=
  onCore s p (fun c s =>
    if s.stilled then none
    else (if k = 0 then c.mStep none else c.mAhead none k).map (s.setCore p))

/-- HOLD_UNTIL_ENTRY_FREE (R36): an engine that holds at a full queue register makes its step once an entry is
free. -/
def execHoldUntilEntryFree (p : Nat) (e : Eng) (s : State) : Out :=
  onCore s p (fun c s =>
    match (c.eng e).pushing with
    | none => none
    | some (n, _) =>
      if 8 ≤ (c.queue n).length || s.stilled then none
      else match e with
        | .V => (c.vStep none).map (s.setCore p)
        | .M => (c.mStep none).map (s.setCore p)
        | _ => none)

end Sys2Proof.Machine
end

