-- ==== Sys2Proof/Machine/ScalarImm.lean ====
section
/-! DEFINITION. Class 0x2: immediate arithmetic (05 R157, R158). -/

namespace Sys2Proof.Machine

/-- One register to another under an immediate (R157). -/
def immOp (i : Instr) (h : Hdr) (d a : BitVec 6) (f : Word → Word) (s : State) : Out :=
  scalar i h (fun c => .retire (c.setReg d.toNat (f (c.reg a.toNat))) 1) s

/-- ADDI (R157). -/
def execAddi (h : Hdr) (d a : BitVec 6) (i : BitVec 9) (s : State) : Out :=
  immOp (.addi h d a i) h d a (fun x => x + immSi h i) s

/-- ANDI (R157). -/
def execAndi (h : Hdr) (d a : BitVec 6) (i : BitVec 9) (s : State) : Out :=
  immOp (.andi h d a i) h d a (fun x => x &&& immSi h i) s

/-- ORI (R157). -/
def execOri (h : Hdr) (d a : BitVec 6) (i : BitVec 9) (s : State) : Out :=
  immOp (.ori h d a i) h d a (fun x => x ||| immSi h i) s

/-- XORI (R157). -/
def execXori (h : Hdr) (d a : BitVec 6) (i : BitVec 9) (s : State) : Out :=
  immOp (.xori h d a i) h d a (fun x => x ^^^ immSi h i) s

/-- SHLI (R157). -/
def execShli (h : Hdr) (d a : BitVec 6) (sh : BitVec 5) (s : State) : Out :=
  immOp (.shli h d a sh) h d a (fun x => x <<< sh.toNat) s

/-- SHRI (R157). -/
def execShri (h : Hdr) (d a : BitVec 6) (sh : BitVec 5) (s : State) : Out :=
  immOp (.shri h d a sh) h d a (fun x => x >>> sh.toNat) s

/-- SRAI (R157). -/
def execSrai (h : Hdr) (d a : BitVec 6) (sh : BitVec 5) (s : State) : Out :=
  immOp (.srai h d a sh) h d a (fun x => x.sshiftRight sh.toNat) s

/-- MOVI (R157). -/
def execMovi (h : Hdr) (d : BitVec 6) (i : BitVec 9) (s : State) : Out :=
  scalar (.movi h d i) h (fun c => .retire (c.setReg d.toNat (immSi h i)) 1) s

/-- CMPI.EQ (R158). -/
def execCmpiEq (h : Hdr) (p : BitVec 3) (a : BitVec 6) (i : BitVec 9) (s : State) : Out :=
  scalar (.cmpiEq h p a i) h (fun c => .retire (c.setPred p.toNat
    (Cond.holds .eq 32 (c.reg a.toNat).toNat (immSi h i).toNat)) 1) s

/-- CMPI.NE (R158). -/
def execCmpiNe (h : Hdr) (p : BitVec 3) (a : BitVec 6) (i : BitVec 9) (s : State) : Out :=
  scalar (.cmpiNe h p a i) h (fun c => .retire (c.setPred p.toNat
    (Cond.holds .ne 32 (c.reg a.toNat).toNat (immSi h i).toNat)) 1) s

/-- CMPI.LT (R158). -/
def execCmpiLt (h : Hdr) (p : BitVec 3) (a : BitVec 6) (i : BitVec 9) (s : State) : Out :=
  scalar (.cmpiLt h p a i) h (fun c => .retire (c.setPred p.toNat
    (Cond.holds .lt 32 (c.reg a.toNat).toNat (immSi h i).toNat)) 1) s

/-- CMPI.LE (R158). -/
def execCmpiLe (h : Hdr) (p : BitVec 3) (a : BitVec 6) (i : BitVec 9) (s : State) : Out :=
  scalar (.cmpiLe h p a i) h (fun c => .retire (c.setPred p.toNat
    (Cond.holds .le 32 (c.reg a.toNat).toNat (immSi h i).toNat)) 1) s

/-- CMPI.LTU (R158). -/
def execCmpiLtu (h : Hdr) (p : BitVec 3) (a : BitVec 6) (i : BitVec 9) (s : State) : Out :=
  scalar (.cmpiLtu h p a i) h (fun c => .retire (c.setPred p.toNat
    (Cond.holds .ltu 32 (c.reg a.toNat).toNat (immSi h i).toNat)) 1) s

/-- CMPI.LEU (R158). -/
def execCmpiLeu (h : Hdr) (p : BitVec 3) (a : BitVec 6) (i : BitVec 9) (s : State) : Out :=
  scalar (.cmpiLeu h p a i) h (fun c => .retire (c.setPred p.toNat
    (Cond.holds .leu 32 (c.reg a.toNat).toNat (immSi h i).toNat)) 1) s

end Sys2Proof.Machine
end

