-- ==== Sys2Proof/Machine/ScalarMem.lean ====
section
/-! DEFINITION. Class 0x3: loads, stores, handles and full/empty ranges (05 R160 to R166). -/

namespace Sys2Proof.Machine

/-- LD.B (R161): zero-extended. -/
def execLdB (h : Hdr) (d a : BitVec 6) (o : BitVec 7) (s : State) : Out :=
  scalar (.ldB h d a o) h (fun c =>
    loadEff c .n (c.ea h a o 1) 1 (fun c v => c.setGroup d.toNat 0 v)) s

/-- LD.H (R161): zero-extended. -/
def execLdH (h : Hdr) (d a : BitVec 6) (o : BitVec 7) (s : State) : Out :=
  scalar (.ldH h d a o) h (fun c =>
    loadEff c .n (c.ea h a o 2) 2 (fun c v => c.setGroup d.toNat 0 v)) s

/-- LD (R161). -/
def execLd (h : Hdr) (w : BitVec 2) (d a : BitVec 6) (o : BitVec 7) (s : State) : Out :=
  scalar (.ld h w d a o) h (fun c =>
    loadEff c .n (c.ea h a o (4 * 2 ^ w.toNat)) (4 * 2 ^ w.toNat) (fun c v => c.setGroup d.toNat w.toNat v)) s

/-- LD.W (R161). -/
def execLdW (h : Hdr) (w : BitVec 2) (d a : BitVec 6) (o : BitVec 7) (s : State) : Out :=
  scalar (.ldW h w d a o) h (fun c =>
    loadEff c .w (c.ea h a o (4 * 2 ^ w.toNat)) (4 * 2 ^ w.toNat) (fun c v => c.setGroup d.toNat w.toNat v)) s

/-- LD.C (R161). -/
def execLdC (h : Hdr) (w : BitVec 2) (d a : BitVec 6) (o : BitVec 7) (s : State) : Out :=
  scalar (.ldC h w d a o) h (fun c =>
    loadEff c .c (c.ea h a o (4 * 2 ^ w.toNat)) (4 * 2 ^ w.toNat) (fun c v => c.setGroup d.toNat w.toNat v)) s

/-- ST.B (R162). -/
def execStB (h : Hdr) (d a : BitVec 6) (o : BitVec 7) (s : State) : Out :=
  scalar (.stB h d a o) h (fun c =>
    storeEff c false (c.ea h a o 1) 1 (c.reg d.toNat).toNat) s

/-- ST.H (R162). -/
def execStH (h : Hdr) (d a : BitVec 6) (o : BitVec 7) (s : State) : Out :=
  scalar (.stH h d a o) h (fun c =>
    storeEff c false (c.ea h a o 2) 2 (c.reg d.toNat).toNat) s

/-- ST (R162). -/
def execSt (h : Hdr) (w : BitVec 2) (d a : BitVec 6) (o : BitVec 7) (s : State) : Out :=
  scalar (.st h w d a o) h (fun c =>
    storeEff c false (c.ea h a o (4 * 2 ^ w.toNat)) (4 * 2 ^ w.toNat) (c.group d.toNat w.toNat)) s

/-- ST.E (R162). -/
def execStE (h : Hdr) (w : BitVec 2) (d a : BitVec 6) (o : BitVec 7) (s : State) : Out :=
  scalar (.stE h w d a o) h (fun c =>
    storeEff c true (c.ea h a o (4 * 2 ^ w.toNat)) (4 * 2 ^ w.toNat) (c.group d.toNat w.toNat)) s

/-- LDP (R164). -/
def execLdp (h : Hdr) (w : BitVec 2) (d a : BitVec 6) (o : BitVec 7) (s : State) : Out :=
  scalar (.ldp h w d a o) h (fun c =>
    loadParam c (c.ea h a o (4 * 2 ^ w.toNat)) (4 * 2 ^ w.toNat) (fun c v => c.setGroup d.toNat w.toNat v)) s

/-- LDH (R165). -/
def execLdh (h : Hdr) (x : BitVec 4) (a : BitVec 6) (o : BitVec 7) (s : State) : Out :=
  scalar (.ldh h x a o) h (fun c =>
    loadEff c .n (c.ea h a o 32) 32 (fun c v => c.setHandle x.toNat (BitVec.ofNat 256 v))) s

/-- STH (R165). -/
def execSth (h : Hdr) (x : BitVec 4) (a : BitVec 6) (o : BitVec 7) (s : State) : Out :=
  scalar (.sth h x a o) h (fun c => storeEff c false (c.ea h a o 32) 32 (c.handle x.toNat).toNat) s

/-- FEQ (R166). -/
def execFeq (h : Hdr) (p : BitVec 3) (a : BitVec 6) (o : BitVec 7) (s : State) : Out :=
  scalar (.feq h p a o) h (fun c =>
    match alignTrap c (c.ea h a o 16) 16 with
    | some t => .trap t
    | none => .retire (c.setPred p.toNat (c.isFull (c.ea h a o 16))) 1) s

/-- FESET (R166). -/
def execFeset (h : Hdr) (d a : BitVec 6) (o : BitVec 7) (s : State) : Out :=
  scalar (.feset h d a o) h (fun c => rangeEff c (c.ea h a o 16) (c.reg d.toNat).toNat (c.rangeDone (.feset h d a o)) true) s

/-- FECLR (R166). -/
def execFeclr (h : Hdr) (d a : BitVec 6) (o : BitVec 7) (s : State) : Out :=
  scalar (.feclr h d a o) h (fun c => rangeEff c (c.ea h a o 16) (c.reg d.toNat).toNat (c.rangeDone (.feclr h d a o)) false) s

end Sys2Proof.Machine
end

