-- ==== Sys2Proof/Machine/Vector.lean ====
section
/-! DEFINITION. Class 0x8: dispatch of the vector cells (07 R201 to R210). What a step does stands in
VecStep. -/

namespace Sys2Proof.Machine

/-- The integer format codes (R207). -/
def intCode (f : Nat) : Bool := f == 8 || f == 9 || f == 12 || f == 13 || f == 14

/-- The format codes that a destination of VRCP to VSIGM, VNORM and VSMAX may have (R207). -/
def floatCode (f : Nat) : Bool := f ≤ 7 || f == 10 || f == 11

/-- Check 1 of R206: the formats of the handles, the destination first (R207), and BLK of VQNT's
destination (R224). -/
def vFormatsOk (k : VKind) (hs : List HandleBits) : Bool :=
  let fs := hs.map hFmt
  let d := fs.getD 0 0
  let a := fs.getD 1 0
  let b := fs.getD 2 8
  match k with
  | .trans _ | .norm | .smax => floatCode d
  | .qnt => decide (1 ≤ d ∧ d ≤ 11) && hBlk (hs.getD 0 0) != 0
  | .int f =>
    fs.all intCode &&
    (match f with
     | .add | .sub | .mul => true
     | _ => a == d)
  | .bilv _ => fs.all (· == 12)
  | .mov => a == d
  | .shuf | .gath | .scat => a == d && intCode b
  | _ => true

/-- The shapes of two handles are equal. -/
def sameShape (x y : HandleBits) : Bool := hD0 x == hD0 y && hD1 x == hD1 y && hD2 x == hD2 y

/-- A source is broadcastable to the destination (R206). -/
def broadcasts (x d : HandleBits) : Bool :=
  (hD0 x == hD0 d || hD0 x == 1) && (hD1 x == hD1 d || hD1 x == 1) && (hD2 x == hD2 d || hD2 x == 1)

/-- Check 2 of R206: the shapes of the handles, the destination first. -/
def vShapesOk (k : VKind) (hs : List HandleBits) : Bool :=
  let d := hs.getD 0 0
  let a := hs.getD 1 0
  let b := hs.getD 2 0
  match k with
  | .shuf | .scan _ | .smax => sameShape a d
  | .norm => sameShape a d && hD0 b == hD0 d && hD1 b == 1 && hD2 b == 1
  | .red _ none => hD0 d == 1 && hD1 d == hD1 a && hD2 d == hD2 a
  | .red _ (some _) => true
  | .gath => sameShape b d
  | .scat => sameShape b a
  | .permb => hBytes d == hBytes b && decide (hBytes a ≤ 256)
  | .bcast | .rng | .drop => true
  | _ => (hs.drop 1).all (fun x => broadcasts x d)

/-- The checks of a vector instruction at dispatch (R21, R206), and its entry. -/
def vecCheck (i : Instr) (h : Hdr) (k : VKind) (us : List HandleUse) (xs : List Nat) (c : Core) :
    Dispatch :=
  let hs := us.map (·.h)
  match handleTrap c (mainWord i) us with
  | some t => .trap t
  | none =>
    if !vFormatsOk k hs then .trap (c.precise 0x01 5 (mainWord i))
    else if !hs.any hEmpty && !vShapesOk k hs then .trap (c.precise 0x01 6 (mainWord i))
    else .entry c (entryOf i h hs xs c)

/-- A vector instruction with the handles it names, the destination first, and the scalars it reads at
dispatch (R41, R209). -/
def vecOp (i : Instr) (h : Hdr) (us : Core → List HandleUse) (xs : Core → List Nat) (s : State) : Out :=
  dispatch i h .V (computeOnly i)
    (fun c => vecCheck i h ((vKind i).getD .mov) (us c) (xs c) c) s

/-- k registers from n on, each as a number. -/
def Core.words (c : Core) (n k : Nat) : List Nat := (List.range k).map (fun j => (c.reg (n + j)).toNat)

/-- The index descriptor of R210: quad q, none for s0. -/
def Core.descriptor (c : Core) (q : BitVec 4) : List Nat := if q = 0 then [] else c.words (4 * q.toNat) 4

/-- hd and ha. -/
def vecOne (i : Instr) (h : Hdr) (d a : BitVec 4) (s : State) : Out :=
  vecOp i h (fun c => [⟨c.handle d.toNat, true⟩, ⟨c.handle a.toNat, false⟩]) (fun _ => []) s

/-- hd, ha and hb. -/
def vecThree (i : Instr) (h : Hdr) (d a b : BitVec 4) (s : State) : Out :=
  vecOp i h (fun c => [⟨c.handle d.toNat, true⟩, ⟨c.handle a.toNat, false⟩, ⟨c.handle b.toNat, false⟩])
    (fun _ => []) s

/-- hd, ha and hb or a scalar: s0 names the handle form (R201). -/
def vecTwo (i : Instr) (h : Hdr) (d a b : BitVec 4) (ss : BitVec 6) (s : State) : Out :=
  vecOp i h
    (fun c =>
      if ss = 0 then [⟨c.handle d.toNat, true⟩, ⟨c.handle a.toNat, false⟩, ⟨c.handle b.toNat, false⟩]
      else [⟨c.handle d.toNat, true⟩, ⟨c.handle a.toNat, false⟩])
    (fun c => if ss = 0 then [] else [(c.reg ss.toNat).toNat]) s

/-- VADD (R216). -/
def execVadd (h : Hdr) (d : BitVec 4) (a : BitVec 4) (b : BitVec 4) (ss : BitVec 6) (s : State) : Out :=
  vecTwo (.vadd h d a b ss) h d a b ss s

/-- VSUB (R216). -/
def execVsub (h : Hdr) (d : BitVec 4) (a : BitVec 4) (b : BitVec 4) (ss : BitVec 6) (s : State) : Out :=
  vecTwo (.vsub h d a b ss) h d a b ss s

/-- VMUL (R216). -/
def execVmul (h : Hdr) (d : BitVec 4) (a : BitVec 4) (b : BitVec 4) (ss : BitVec 6) (s : State) : Out :=
  vecTwo (.vmul h d a b ss) h d a b ss s

/-- VFMA (R216). -/
def execVfma (h : Hdr) (d : BitVec 4) (a : BitVec 4) (b : BitVec 4) (ss : BitVec 6) (s : State) : Out :=
  vecTwo (.vfma h d a b ss) h d a b ss s

/-- VMIN (R216). -/
def execVmin (h : Hdr) (d : BitVec 4) (a : BitVec 4) (b : BitVec 4) (ss : BitVec 6) (s : State) : Out :=
  vecTwo (.vmin h d a b ss) h d a b ss s

/-- VMAX (R216). -/
def execVmax (h : Hdr) (d : BitVec 4) (a : BitVec 4) (b : BitVec 4) (ss : BitVec 6) (s : State) : Out :=
  vecTwo (.vmax h d a b ss) h d a b ss s

/-- VABS (R216). -/
def execVabs (h : Hdr) (d : BitVec 4) (a : BitVec 4) (s : State) : Out :=
  vecOne (.vabs h d a) h d a s

/-- VNEG (R216). -/
def execVneg (h : Hdr) (d : BitVec 4) (a : BitVec 4) (s : State) : Out :=
  vecOne (.vneg h d a) h d a s

/-- VRCP (R217). -/
def execVrcp (h : Hdr) (d : BitVec 4) (a : BitVec 4) (s : State) : Out :=
  vecOne (.vrcp h d a) h d a s

/-- VRSQ (R217). -/
def execVrsq (h : Hdr) (d : BitVec 4) (a : BitVec 4) (s : State) : Out :=
  vecOne (.vrsq h d a) h d a s

/-- VEXP2 (R217). -/
def execVexp2 (h : Hdr) (d : BitVec 4) (a : BitVec 4) (s : State) : Out :=
  vecOne (.vexp2 h d a) h d a s

/-- VLOG2 (R217). -/
def execVlog2 (h : Hdr) (d : BitVec 4) (a : BitVec 4) (s : State) : Out :=
  vecOne (.vlog2 h d a) h d a s

/-- VSIN (R217). -/
def execVsin (h : Hdr) (d : BitVec 4) (a : BitVec 4) (s : State) : Out :=
  vecOne (.vsin h d a) h d a s

/-- VCOS (R217). -/
def execVcos (h : Hdr) (d : BitVec 4) (a : BitVec 4) (s : State) : Out :=
  vecOne (.vcos h d a) h d a s

/-- VTANH (R217). -/
def execVtanh (h : Hdr) (d : BitVec 4) (a : BitVec 4) (s : State) : Out :=
  vecOne (.vtanh h d a) h d a s

/-- VSIGM (R217). -/
def execVsigm (h : Hdr) (d : BitVec 4) (a : BitVec 4) (s : State) : Out :=
  vecOne (.vsigm h d a) h d a s

/-- VIADD (R219). -/
def execViadd (h : Hdr) (d : BitVec 4) (a : BitVec 4) (b : BitVec 4) (ss : BitVec 6) (s : State) : Out :=
  vecTwo (.viadd h d a b ss) h d a b ss s

/-- VISUB (R219). -/
def execVisub (h : Hdr) (d : BitVec 4) (a : BitVec 4) (b : BitVec 4) (ss : BitVec 6) (s : State) : Out :=
  vecTwo (.visub h d a b ss) h d a b ss s

/-- VIMUL (R219). -/
def execVimul (h : Hdr) (d : BitVec 4) (a : BitVec 4) (b : BitVec 4) (ss : BitVec 6) (s : State) : Out :=
  vecTwo (.vimul h d a b ss) h d a b ss s

/-- VAND (R219). -/
def execVand (h : Hdr) (d : BitVec 4) (a : BitVec 4) (b : BitVec 4) (ss : BitVec 6) (s : State) : Out :=
  vecTwo (.vand h d a b ss) h d a b ss s

/-- VOR (R219). -/
def execVor (h : Hdr) (d : BitVec 4) (a : BitVec 4) (b : BitVec 4) (ss : BitVec 6) (s : State) : Out :=
  vecTwo (.vor h d a b ss) h d a b ss s

/-- VXOR (R219). -/
def execVxor (h : Hdr) (d : BitVec 4) (a : BitVec 4) (b : BitVec 4) (ss : BitVec 6) (s : State) : Out :=
  vecTwo (.vxor h d a b ss) h d a b ss s

/-- VSHL (R219). -/
def execVshl (h : Hdr) (d : BitVec 4) (a : BitVec 4) (b : BitVec 4) (ss : BitVec 6) (s : State) : Out :=
  vecTwo (.vshl h d a b ss) h d a b ss s

/-- VSHR (R219). -/
def execVshr (h : Hdr) (d : BitVec 4) (a : BitVec 4) (b : BitVec 4) (ss : BitVec 6) (s : State) : Out :=
  vecTwo (.vshr h d a b ss) h d a b ss s

/-- VSRA (R219). -/
def execVsra (h : Hdr) (d : BitVec 4) (a : BitVec 4) (b : BitVec 4) (ss : BitVec 6) (s : State) : Out :=
  vecTwo (.vsra h d a b ss) h d a b ss s

/-- VCLZ (R219). -/
def execVclz (h : Hdr) (d : BitVec 4) (a : BitVec 4) (s : State) : Out :=
  vecOne (.vclz h d a) h d a s

/-- VPOPC (R219). -/
def execVpopc (h : Hdr) (d : BitVec 4) (a : BitVec 4) (s : State) : Out :=
  vecOne (.vpopc h d a) h d a s

/-- VBILV (R220). -/
def execVbilv (h : Hdr) (d : BitVec 4) (a : BitVec 4) (b : BitVec 4) (m : BitVec 1) (s : State) : Out :=
  vecThree (.vbilv h d a b m) h d a b s

/-- VCMP.EQ (R221). -/
def execVcmpEq (h : Hdr) (d : BitVec 4) (a : BitVec 4) (b : BitVec 4) (ss : BitVec 6) (s : State) : Out :=
  vecTwo (.vcmpEq h d a b ss) h d a b ss s

/-- VCMP.NE (R221). -/
def execVcmpNe (h : Hdr) (d : BitVec 4) (a : BitVec 4) (b : BitVec 4) (ss : BitVec 6) (s : State) : Out :=
  vecTwo (.vcmpNe h d a b ss) h d a b ss s

/-- VCMP.LT (R221). -/
def execVcmpLt (h : Hdr) (d : BitVec 4) (a : BitVec 4) (b : BitVec 4) (ss : BitVec 6) (s : State) : Out :=
  vecTwo (.vcmpLt h d a b ss) h d a b ss s

/-- VCMP.LE (R221). -/
def execVcmpLe (h : Hdr) (d : BitVec 4) (a : BitVec 4) (b : BitVec 4) (ss : BitVec 6) (s : State) : Out :=
  vecTwo (.vcmpLe h d a b ss) h d a b ss s

/-- VMSEL (R222). -/
def execVmsel (h : Hdr) (d : BitVec 4) (a : BitVec 4) (k : BitVec 4) (ss : BitVec 6) (s : State) : Out :=
  vecOp (.vmsel h d a k ss) h
    (fun c => [⟨c.handle d.toNat, true⟩, ⟨c.handle a.toNat, false⟩, ⟨c.handle k.toNat, false⟩]) (fun c => [(c.reg ss.toNat).toNat]) s

/-- VMSEL.M (R222). -/
def execVmselM (h : Hdr) (d : BitVec 4) (a : BitVec 4) (k : BitVec 4) (s : State) : Out :=
  vecThree (.vmselM h d a k) h d a k s

/-- VCVT (R223). -/
def execVcvt (h : Hdr) (d : BitVec 4) (a : BitVec 4) (ss : BitVec 4) (m : BitVec 1) (s : State) : Out :=
  vecOp (.vcvt h d a ss m) h
    (fun c => [⟨c.handle d.toNat, true⟩, ⟨c.handle a.toNat, false⟩]) (fun c => c.descriptor ss) s

/-- VQNT (R224). -/
def execVqnt (h : Hdr) (d : BitVec 4) (a : BitVec 4) (ss : BitVec 4) (s : State) : Out :=
  vecOp (.vqnt h d a ss) h
    (fun c => [⟨c.handle d.toNat, true⟩, ⟨c.handle a.toNat, false⟩]) (fun c => c.descriptor ss) s

/-- VDQT (R225). -/
def execVdqt (h : Hdr) (d : BitVec 4) (a : BitVec 4) (ss : BitVec 4) (s : State) : Out :=
  vecOp (.vdqt h d a ss) h
    (fun c => [⟨c.handle d.toNat, true⟩, ⟨c.handle a.toNat, false⟩]) (fun c => c.descriptor ss) s

/-- VPERMB (R227). -/
def execVpermb (h : Hdr) (d : BitVec 4) (a : BitVec 4) (b : BitVec 4) (s : State) : Out :=
  vecThree (.vpermb h d a b) h d a b s

/-- VSHUF (R228). -/
def execVshuf (h : Hdr) (d : BitVec 4) (a : BitVec 4) (b : BitVec 4) (s : State) : Out :=
  vecThree (.vshuf h d a b) h d a b s

/-- VBCAST (R229). -/
def execVbcast (h : Hdr) (d : BitVec 4) (a : BitVec 4) (ss : BitVec 6) (s : State) : Out :=
  vecOp (.vbcast h d a ss) h
    (fun c => if ss = 0 then [⟨c.handle d.toNat, true⟩, ⟨c.handle a.toNat, false⟩] else [⟨c.handle d.toNat, true⟩])
    (fun c => if ss = 0 then [] else [(c.reg ss.toNat).toNat]) s

/-- VMOV (R230). -/
def execVmov (h : Hdr) (d : BitVec 4) (a : BitVec 4) (s : State) : Out :=
  vecOne (.vmov h d a) h d a s

/-- VRSUM (R231). -/
def execVrsum (h : Hdr) (d : BitVec 4) (a : BitVec 4) (s : State) : Out :=
  vecOne (.vrsum h d a) h d a s

/-- VRSUM.Q (R232). -/
def execVrsumQ (h : Hdr) (n : BitVec 2) (a : BitVec 4) (s : State) : Out :=
  vecOp (.vrsumQ h n a) h (fun c => [⟨c.handle a.toNat, false⟩]) (fun _ => []) s

/-- VRMAX (R231). -/
def execVrmax (h : Hdr) (d : BitVec 4) (a : BitVec 4) (s : State) : Out :=
  vecOne (.vrmax h d a) h d a s

/-- VRMAX.Q (R232). -/
def execVrmaxQ (h : Hdr) (n : BitVec 2) (a : BitVec 4) (s : State) : Out :=
  vecOp (.vrmaxQ h n a) h (fun c => [⟨c.handle a.toNat, false⟩]) (fun _ => []) s

/-- VRMIN (R231). -/
def execVrmin (h : Hdr) (d : BitVec 4) (a : BitVec 4) (s : State) : Out :=
  vecOne (.vrmin h d a) h d a s

/-- VRMIN.Q (R232). -/
def execVrminQ (h : Hdr) (n : BitVec 2) (a : BitVec 4) (s : State) : Out :=
  vecOp (.vrminQ h n a) h (fun c => [⟨c.handle a.toNat, false⟩]) (fun _ => []) s

/-- VSCAN (R233). -/
def execVscan (h : Hdr) (d : BitVec 4) (a : BitVec 4) (m : BitVec 1) (s : State) : Out :=
  vecOne (.vscan h d a m) h d a s

/-- VGATH (R234). -/
def execVgath (h : Hdr) (d : BitVec 4) (a : BitVec 4) (b : BitVec 4) (s : State) : Out :=
  vecThree (.vgath h d a b) h d a b s

/-- VSCAT (R235). -/
def execVscat (h : Hdr) (d : BitVec 4) (a : BitVec 4) (b : BitVec 4) (s : State) : Out :=
  vecThree (.vscat h d a b) h d a b s

/-- VRNG (R236). -/
def execVrng (h : Hdr) (d : BitVec 4) (ss : BitVec 4) (s : State) : Out :=
  vecOp (.vrng h d ss) h (fun c => [⟨c.handle d.toNat, true⟩]) (fun c => c.descriptor ss) s

/-- VDROP (R237). -/
def execVdrop (h : Hdr) (d : BitVec 4) (ss : BitVec 3) (s : State) : Out :=
  vecOp (.vdrop h d ss) h (fun c => [⟨c.handle d.toNat, true⟩])
    (fun c => c.words (8 * ss.toNat) 8) s

/-- VNORM (R238). -/
def execVnorm (h : Hdr) (d : BitVec 4) (a : BitVec 4) (b : BitVec 4) (ss : BitVec 5) (s : State) : Out :=
  vecOp (.vnorm h d a b ss) h (fun c => [⟨c.handle d.toNat, true⟩, ⟨c.handle a.toNat, false⟩, ⟨c.handle b.toNat, false⟩])
    (fun c => if ss = 0 then [] else c.words (2 * ss.toNat) 2) s

/-- VSMAX (R239). -/
def execVsmax (h : Hdr) (d : BitVec 4) (a : BitVec 4) (ss : BitVec 6) (s : State) : Out :=
  vecOp (.vsmax h d a ss) h (fun c => [⟨c.handle d.toNat, true⟩, ⟨c.handle a.toNat, false⟩])
    (fun c => if ss = 0 then [] else [(c.reg ss.toNat).toNat]) s

end Sys2Proof.Machine
end

