-- ==== Sys2Proof/Machine/Resume.lean ====
section
/-! DEFINITION. The meaning of an instruction word, for the steps that let a held front end go on. -/

namespace Sys2Proof.Machine

/-- What executing an instruction word does; a step of an agent is none. -/
def runWord (i : Instr) (s : State) : Out :=
  match i with
  | .add h w d a b => execAdd h w d a b s
  | .sub h w d a b => execSub h w d a b s
  | .and h w d a b => execAnd h w d a b s
  | .or h w d a b => execOr h w d a b s
  | .xor h w d a b => execXor h w d a b s
  | .andn h w d a b => execAndn h w d a b s
  | .shl h d a b => execShl h d a b s
  | .shr h d a b => execShr h d a b s
  | .sra h d a b => execSra h d a b s
  | .rot h d a b => execRot h d a b s
  | .min h d a b => execMin h d a b s
  | .max h d a b => execMax h d a b s
  | .minu h d a b => execMinu h d a b s
  | .maxu h d a b => execMaxu h d a b s
  | .cmpEq h w p a b => execCmpEq h w p a b s
  | .cmpNe h w p a b => execCmpNe h w p a b s
  | .cmpLt h w p a b => execCmpLt h w p a b s
  | .cmpLe h w p a b => execCmpLe h w p a b s
  | .cmpLtu h w p a b => execCmpLtu h w p a b s
  | .cmpLeu h w p a b => execCmpLeu h w p a b s
  | .sel h n w d a b => execSel h n w d a b s
  | .mul h d a b => execMul h d a b s
  | .mulh h d a b => execMulh h d a b s
  | .mulhu h d a b => execMulhu h d a b s
  | .div h d a b => execDiv h d a b s
  | .divu h d a b => execDivu h d a b s
  | .rem h d a b => execRem h d a b s
  | .remu h d a b => execRemu h d a b s
  | .clz h d a => execClz h d a s
  | .ctz h d a => execCtz h d a s
  | .popc h d a => execPopc h d a s
  | .brev h d a => execBrev h d a s
  | .bilv2 h d a b => execBilv2 h d a b s
  | .bilv3 h d a b => execBilv3 h d a b s
  | .bdlv2 h d a b => execBdlv2 h d a b s
  | .bdlv3 h d a b => execBdlv3 h d a b s
  | .bfx h d a b => execBfx h d a b s
  | .bfi h d a b => execBfi h d a b s
  | .fadd h d a b => execFadd h d a b s
  | .fmul h d a b => execFmul h d a b s
  | .fma h d a b => execFma h d a b s
  | .fmin h d a b => execFmin h d a b s
  | .fmax h d a b => execFmax h d a b s
  | .fcvtFI h d a => execFcvtFI h d a s
  | .fcvtFU h d a => execFcvtFU h d a s
  | .fcvtIF h d a => execFcvtIF h d a s
  | .fcvtUF h d a => execFcvtUF h d a s
  | .fcmpEq h p a b => execFcmpEq h p a b s
  | .fcmpLt h p a b => execFcmpLt h p a b s
  | .fcmpLe h p a b => execFcmpLe h p a b s
  | .fcmpUn h p a b => execFcmpUn h p a b s
  | .addi h d a im => execAddi h d a im s
  | .andi h d a im => execAndi h d a im s
  | .ori h d a im => execOri h d a im s
  | .xori h d a im => execXori h d a im s
  | .shli h d a ss => execShli h d a ss s
  | .shri h d a ss => execShri h d a ss s
  | .srai h d a ss => execSrai h d a ss s
  | .movi h d im => execMovi h d im s
  | .cmpiEq h p a im => execCmpiEq h p a im s
  | .cmpiNe h p a im => execCmpiNe h p a im s
  | .cmpiLt h p a im => execCmpiLt h p a im s
  | .cmpiLe h p a im => execCmpiLe h p a im s
  | .cmpiLtu h p a im => execCmpiLtu h p a im s
  | .cmpiLeu h p a im => execCmpiLeu h p a im s
  | .ldB h d a o => execLdB h d a o s
  | .ldH h d a o => execLdH h d a o s
  | .ld h w d a o => execLd h w d a o s
  | .ldW h w d a o => execLdW h w d a o s
  | .ldC h w d a o => execLdC h w d a o s
  | .stB h d a o => execStB h d a o s
  | .stH h d a o => execStH h d a o s
  | .st h w d a o => execSt h w d a o s
  | .stE h w d a o => execStE h w d a o s
  | .ldp h w d a o => execLdp h w d a o s
  | .ldh h x a o => execLdh h x a o s
  | .sth h x a o => execSth h x a o s
  | .feq h p a o => execFeq h p a o s
  | .feset h d a o => execFeset h d a o s
  | .feclr h d a o => execFeclr h d a o s
  | .br h o => execBr h o s
  | .brl h o => execBrl h o s
  | .loop h a e => execLoop h a e s
  | .loopi h c e => execLoopi h c e s
  | .jr h a o => execJr h a o s
  | .jrl h a o => execJrl h a o s
  | .csrr h w d c => execCsrr h w d c s
  | .csrw h w d c => execCsrw h w d c s
  | .csrs h w d c => execCsrs h w d c s
  | .csrc h w d c => execCsrc h w d c s
  | .pand h d a b => execPand h d a b s
  | .por h d a b => execPor h d a b s
  | .pxor h d a b => execPxor h d a b s
  | .pnot h d a => execPnot h d a s
  | .pmov h d a => execPmov h d a s
  | .nop h => execNop h s
  | .sync h => execSync h s
  | .iter h => execIter h s
  | .eret h => execEret h s
  | .svc h c => execSvc h c s
  | .bkpt h c => execBkpt h c s
  | .qpop h d n => execQpop h d n s
  | .qstat h d n => execQstat h d n s
  | .rng h d a => execRng h d a s
  | .lendM h n => execLendM h n s
  | .lendV h n => execLendV h n s
  | .vadd h d a b ss => execVadd h d a b ss s
  | .vsub h d a b ss => execVsub h d a b ss s
  | .vmul h d a b ss => execVmul h d a b ss s
  | .vfma h d a b ss => execVfma h d a b ss s
  | .vmin h d a b ss => execVmin h d a b ss s
  | .vmax h d a b ss => execVmax h d a b ss s
  | .vabs h d a => execVabs h d a s
  | .vneg h d a => execVneg h d a s
  | .vrcp h d a => execVrcp h d a s
  | .vrsq h d a => execVrsq h d a s
  | .vexp2 h d a => execVexp2 h d a s
  | .vlog2 h d a => execVlog2 h d a s
  | .vsin h d a => execVsin h d a s
  | .vcos h d a => execVcos h d a s
  | .vtanh h d a => execVtanh h d a s
  | .vsigm h d a => execVsigm h d a s
  | .viadd h d a b ss => execViadd h d a b ss s
  | .visub h d a b ss => execVisub h d a b ss s
  | .vimul h d a b ss => execVimul h d a b ss s
  | .vand h d a b ss => execVand h d a b ss s
  | .vor h d a b ss => execVor h d a b ss s
  | .vxor h d a b ss => execVxor h d a b ss s
  | .vshl h d a b ss => execVshl h d a b ss s
  | .vshr h d a b ss => execVshr h d a b ss s
  | .vsra h d a b ss => execVsra h d a b ss s
  | .vclz h d a => execVclz h d a s
  | .vpopc h d a => execVpopc h d a s
  | .vbilv h d a b m => execVbilv h d a b m s
  | .vcmpEq h d a b ss => execVcmpEq h d a b ss s
  | .vcmpNe h d a b ss => execVcmpNe h d a b ss s
  | .vcmpLt h d a b ss => execVcmpLt h d a b ss s
  | .vcmpLe h d a b ss => execVcmpLe h d a b ss s
  | .vmsel h d a k ss => execVmsel h d a k ss s
  | .vmselM h d a k => execVmselM h d a k s
  | .vcvt h d a ss m => execVcvt h d a ss m s
  | .vqnt h d a ss => execVqnt h d a ss s
  | .vdqt h d a ss => execVdqt h d a ss s
  | .vpermb h d a b => execVpermb h d a b s
  | .vshuf h d a b => execVshuf h d a b s
  | .vbcast h d a ss => execVbcast h d a ss s
  | .vmov h d a => execVmov h d a s
  | .vrsum h d a => execVrsum h d a s
  | .vrsumQ h n a => execVrsumQ h n a s
  | .vrmax h d a => execVrmax h d a s
  | .vrmaxQ h n a => execVrmaxQ h n a s
  | .vrmin h d a => execVrmin h d a s
  | .vrminQ h n a => execVrminQ h n a s
  | .vscan h d a m => execVscan h d a m s
  | .vgath h d a b => execVgath h d a b s
  | .vscat h d a b => execVscat h d a b s
  | .vrng h d ss => execVrng h d ss s
  | .vdrop h d ss => execVdrop h d ss s
  | .vnorm h d a b ss => execVnorm h d a b ss s
  | .vsmax h d a ss => execVsmax h d a ss s
  | .mcfg h m k => execMcfg h m k s
  | .mwl h x => execMwl h x s
  | .mws h => execMws h s
  | .mms h x k p ss => execMms h x k p ss s
  | .mmsz h x k p ss => execMmsz h x k p ss s
  | .msclC h x k => execMsclC h x k s
  | .msclR h x k => execMsclR h x k s
  | .msclK h x => execMsclK h x s
  | .mza h k n => execMza h k n s
  | .mrd h x k im m => execMrd h x k im m s
  | .mwr h x k im => execMwr h x k im s
  | .mdrn h => execMdrn h s
  | .mstat h n => execMstat h n s
  | .xcpy h d ss => execXcpy h d ss s
  | .xtrn h d ss => execXtrn h d ss s
  | .xfill h d a => execXfill h d a s
  | .xput h ss a c q => execXput h ss a c q s
  | .xget h d a c q => execXget h d a c q s
  | .xpf h a c => execXpf h a c s
  | .xld h d a c q => execXld h d a c q s
  | .xst h ss a c q => execXst h ss a c q s
  | .xldg h d a c m => execXldg h d a c m s
  | .xbc h ss a c q => execXbc h ss a c q s
  | .xatmGrp h o ss a c m => execXatmGrp h o ss a c m s
  | .xatmGang h o ss a c m => execXatmGang h o ss a c m s
  | .xatmDev h o ss a c m => execXatmDev h o ss a c m s
  | .xatmSys h o ss a c m => execXatmSys h o ss a c m s
  | .xgth h d ss a c => execXgth h d ss a c s
  | .xenc h ss a c e => execXenc h ss a c e s
  | .xdec h d a c => execXdec h d a c s
  | .xovl h a c => execXovl h a c s
  | .xsig h a c m => execXsig h a c m s
  | .xlaunch h ss a c => execXlaunch h ss a c s
  | .xarm h n a => execXarm h n a s
  | .xarmImm h n => execXarmImm h n s
  | .xwait h a c => execXwait h a c s
  | .xwaitL h n => execXwaitL h n s
  | .xfence h c => execXfence h c s
  | .xrdev h ss a c m => execXrdev h ss a c m s
  | _ => .next s

end Sys2Proof.Machine
end

