-- ==== Sys2Proof/Machine/Holds.lean ====
section
/-! DEFINITION. How a held front end goes on (02 R80, 01 R29, R37, 06 R179, R183), and reports taken at an
instruction boundary (06 R197). -/

namespace Sys2Proof.Machine

/-- A step of the front end of core p: nothing happens where the core issues nothing, or where something else
comes first at the boundary. -/
def onFront (s : State) (p : Nat) (f : State → Option State) : Out :=
  if coreCount ≤ p then .fault (.noSuchUnit "core" p)
  else
    let t := s.select p
    .next (if t.core.issues && !t.stilled then (f t).getD s else s)

/-- What a step of the machine leaves, where it goes on. -/
def nextOf (o : Out) : Option State :=
  match o with
  | .next s => some s
  | _ => none

/-- The held instruction of the current core goes on, where it is held for a reason and a condition holds. -/
def resume (why : HoldReason) (due : Core → Held → Bool) (s : State) : Option State :=
  match s.core.held with
  | some x =>
    if x.why = why ∧ (atBoundary s).isNone ∧ due s.core x then nextOf (runWord x.instr s) else none
  | none => none

/-- TOKEN_WAIT_SATISFIED (R80, R177). -/
def execTokenWaitSatisfied (p : Nat) (s : State) : Out :=
  onFront s p (resume .tokens (fun c x => x.waits.all (waitDone c)))

/-- The engine that a main word dispatches to (R93 to R95). -/
def engineOf (i : Instr) : Option Eng :=
  let w := encodeMain i
  if w < 0x80000000 then none
  else if w < 0xA0000000 then some .V
  else if w < 0xC0000000 then some .M
  else if w < 0xC0C00000 then some .L
  else some .E

/-- The engine of a held instruction has room (R37). -/
def hasRoom (c : Core) (x : Held) : Bool :=
  match engineOf x.instr with
  | some e => decide ((c.eng e).queue.length < engDepth e)
  | none => false

/-- DISPATCH_QUEUE_ROOM (R37). -/
def execDispatchQueueRoom (p : Nat) (s : State) : Out := onFront s p (resume .room hasRoom)

/-- The granules of a W or C load are all full (R29). -/
def loadReady (c : Core) (x : Held) : Bool :=
  let full := fun (a z : Nat) => (granules a z).all (setHas c.full)
  match x.instr with
  | .ldW h w _ a o => full (c.ea h a o (4 * 2 ^ w.toNat)) (4 * 2 ^ w.toNat)
  | .ldC h w _ a o => full (c.ea h a o (4 * 2 ^ w.toNat)) (4 * 2 ^ w.toNat)
  | _ => false

/-- FULL_EMPTY_WAIT_SATISFIED (R29). -/
def execFullEmptyWaitSatisfied (p : Nat) (s : State) : Out := onFront s p (resume .fullEmpty loadReady)

/-- The queue register that a QPOP reads holds an entry (R183). -/
def popReady (c : Core) (x : Held) : Bool :=
  match x.instr with
  | .qpop _ _ n => !(c.queue n.toNat).isEmpty
  | _ => false

/-- QPOP_ENTRY_ARRIVES (R183). -/
def execQpopEntryArrives (p : Nat) (s : State) : Out := onFront s p (resume .qpop popReady)

/-- SYNC_DRAINED (R179). -/
def execSyncDrained (p : Nat) (s : State) : Out :=
  onFront s p (resume .sync (fun c _ => (c.pst == .compute || c.pst == .straggler) && c.drained))

/-- IMPRECISE_REPORT_TAKEN (R197): in user mode, where no halt comes first. -/
def execImpreciseReportTaken (p : Nat) (s : State) : Out :=
  onFront s p (fun s =>
    if s.core.midRange || s.core.pend.halt.isSome || s.stopReached || s.core.csr.priv then none
    else s.core.pendingReport.map (fun r => takeReport s r.1 r.2))

end Sys2Proof.Machine
end

