-- ==== Sys2Proof/Machine/HostPort.lean ====
section
/-! DEFINITION. What arrives at the PCI Express ports (15 R432 to R446, 10 R333): memory requests, AtomicOps, virtual
functions' doorbells, links, the peer reduction unit's messages, and register writes of the host. -/

namespace Sys2Proof.Machine

/-! ## Functions and their BARs -/

/-- What a request addresses: a physical address, a signal slot byte of a virtual function's own context, or
VQBELL (R433, R434). -/
inductive BarTarget where
  | phys (a : Nat)
  | slot (ctx off : Nat)
  | bell
deriving DecidableEq, Repr

/-- A function answers: the physical one from stage 0 on, the virtual ones that are enabled from stage 1 on
(R433, R464). -/
def State.hasFunction (s : State) (fn : Nat) : Bool :=
  !s.mgmt.inReset && (fn == 0 || (decide (fn ≤ s.numVfs) && decide (1 ≤ s.mgmt.stage)))

/-- The tables of the physical function's BARs (R433): offset, size and physical base. -/
def bar0Map : List (Nat × Nat × Nat) :=
  [(0, 0x200000, 0x420000000000), (0x200000, 0x100000, 0x430000000000), (0x300000, 0x10000, 0x460000000000),
   (0x1000000, 0x1000000, 0x440000000000), (0x2000000, 0x1000000, 0x450000000000),
   (0x3000000, 0x1000000, 0x480000000000)]
def bar4Map : List (Nat × Nat × Nat) :=
  [(0, 1600 * 0x100000, 0x400000000000), (0x68000000, 0x8000000, 0x410000000000),
   (0x70000000, 0x100000, 0x410010000000), (0x78000000, 0x5000000, 0x470000000000)]

/-- The physical address of n bytes at an offset, by such a table. -/
def barAddr (m : List (Nat × Nat × Nat)) (off n : Nat) : Option Nat :=
  (m.find? (fun r => decide (r.1 ≤ off ∧ off + n ≤ r.1 + r.2.1))).map (fun r => r.2.2 + (off - r.1))

/-- What n bytes at an offset of the physical function's BAR address (R433). -/
def pfTarget (bar off n : Nat) : Option BarTarget :=
  match bar with
  | 0 => (barAddr bar0Map off n).map .phys
  | 2 => if off + n ≤ gddrSize then some (.phys off) else none
  | 4 => (barAddr bar4Map off n).map .phys
  | _ => none

/-- What n bytes at an offset of virtual function fn's BAR address (R433, R434). -/
def State.vfTarget (s : State) (fn bar off n : Nat) : Option BarTarget :=
  match bar with
  | 0 =>
    if off + n ≤ 4 then some .bell
    else if 0x100000 ≤ off ∧ off + n ≤ 0x200000 then some (.slot fn (off - 0x100000))
    else none
  | 2 =>
    let a := (s.vfBase[fn]?.getD 0).toNat + off
    if off + n ≤ 0x100000000 ∧ a + n ≤ gddrSize then some (.phys a) else none
  | _ => none

/-- What a request addresses, where the function answers and its stage provides the block (R465). -/
def State.barTarget (s : State) (fn bar off n : Nat) : Option BarTarget :=
  if !s.hasFunction fn then none
  else match (if fn = 0 then pfTarget bar off n else s.vfTarget fn bar off n) with
    | some (.phys a) => if s.provides a then some (.phys a) else none
    | t => t

/-! ## Requests of the host -/

/-- VQBELL of a virtual function (R434): it rings a queue of its own context, and no other; a QCB with a bit that must be
zero is none's (R7, log 93). -/
def State.vqbell (s : State) (vf q : Nat) : State :=
  match s.dirEntry q with
  | some a => if s.qcbOk a ∧ s.qCtx a = vf then s.ringBell q else s
  | none => s

/-- Bytes of the slots as a virtual function sees them (R434): a slot of another context reads 0. -/
def State.ownSlots (s : State) (ctx off n : Nat) : List Byte :=
  (List.range n).map (fun k => if s.slotCtx ((off + k) / 16) = ctx then memRead s.dist.signals (off + k) else 0)

/-- Bytes stored into the slots by a virtual function (R434): those of another context's slots are discarded;
which slots are its own is judged before the write. -/
def State.putOwnSlots (s : State) (ctx off : Nat) (bs : List Byte) : State :=
  (List.range bs.length).foldl (fun t k =>
    if s.slotCtx ((off + k) / 16) = ctx then t.putSlots (off + k) [bs.getD k 0] else t) s

/-- A read request (R333): its completion with the bytes, poisoned where poison was met (R345, R346). -/
def State.hostRead (s : State) (t : BarTarget) (n : Nat) : State :=
  match t with
  | .bell => s.emit (.completion 0 (List.replicate n 0) false)
  | .slot c o => s.emit (.completion 0 (s.ownSlots c o n) false)
  | .phys a =>
    match s.physLoad a n with
    | (s', .ok bs bad) => s'.emit (.completion 0 bs bad)
    | (_, .unmapped) => s.unsupported
    | (_, .busy) => s.aborted

/-- A staging byte belongs to the result of a collecting block. -/
def PeerBlock.covers (x : PeerBlock) (a : Nat) : Bool :=
  x.state == .collect && decide (x.rstg ≤ a ∧ a < x.rstg + x.size)

/-- A staging byte belongs to the result of a collecting block, in its context's staging (R439, R444). -/
def State.resultByte (s : State) (a : Nat) : Bool :=
  s.peer.blocks.any (fun p => p.2.covers a && s.stgOwned p.2.ctx a 1)

/-- A byte of n at a physical address belongs to the result of a collecting block, but lies outside the staging of its
context: R444 writes no such range. -/
def State.resultRefused (s : State) (a n : Nat) : Bool :=
  let o := a - 0x410000000000
  decide (0x410000000000 ≤ a) &&
  (List.range n).any (fun k => s.peer.blocks.any (fun p => p.2.covers (o + k)) && !s.resultByte (o + k))

/-- The staging offset of a physical range that lies in results of collecting blocks (R444). -/
def State.resultAt (s : State) (a n : Nat) : Option Nat :=
  let o := a - 0x410000000000
  if 0x410000000000 ≤ a ∧ 0 < n ∧ (List.range n).all (fun k => s.resultByte (o + k)) then some o else none

/-- A write request (R333), posted: it has a completion only where it is refused. The result of a collecting block may
arrive here, for a member that the home reaches by its host port; a range of it outside the context's staging is not
written (R439, R444; DEDUCED, log 108). -/
def State.hostWrite (s : State) (fn : Nat) (t : BarTarget) (bs : List Byte) (bad : Bool) : State :=
  match t with
  | .bell => if bad then s else s.vqbell fn (natOfBytes bs % 4096)
  | .slot c o => if bad then s else s.putOwnSlots c o bs
  | .phys a =>
    match s.resultAt a bs.length with
    | some o => s.peerResult o bs bad
    | none =>
    if s.resultRefused a bs.length then s else
    match s.physSave true fn a bs bad with
    | (s', .ok _ _) => s'
    | (_, .unmapped) => s.unsupported
    | (_, .busy) => s.aborted

/-- A write through the host port is a part of a collecting block's result behind the last byte of staging: R444 writes no such
range, and what lies at these offsets of BAR4 keeps its contents (DEDUCED, log 108). -/
def State.resultLost (s : State) (r : PcieReq) (n : Nat) : Bool :=
  s.inStage 1 && r.data.isSome && r.fn == 0 && r.bar == 4 && decide (0x70000000 ≤ r.off) &&
  s.resultRefused (0x410000000000 + (r.off - 0x68000000)) n

/-- A memory request of the host (R333, R433). -/
def State.hostRequest (s : State) (r : PcieReq) : State :=
  let n := match r.data with
    | some bs => bs.length
    | none => r.n
  if s.resultLost r n then s
  else match s.barTarget r.fn r.bar r.off n with
  | none => s.unsupported
  | some t =>
    match r.data with
    | none => s.hostRead t n
    | some bs => s.hostWrite r.fn t bs r.ep

/-! ## Requests of a peer -/

/-- A request that arrives at peer port p names BAR4 (R437): the endpoint end presents a function with BAR4 alone; at the
root-port end (PMODE) no function stands, and the offset is taken as that of BAR4 (log 23). -/
def State.peerBar (s : State) (p bar : Nat) : Bool := wbit (s.port p).cfg 2 || bar == 4

/-- A physical address lies in the window of a core that holds a task (R336). -/
def State.busyWindow (s : State) (a : Nat) : Bool :=
  decide (0x400000000000 ≤ a ∧ a < 0x400000000000 + 1600 * 0x100000) && s.windowBusy ((a - 0x400000000000) / 0x100000)

/-- A peer's request names the window of a core that holds a task (R336). -/
def State.peerBusy (s : State) (off n : Nat) : Bool := (barAddr bar4Map off n).any s.busyWindow

/-- A memory request of a peer (R437, R442): results of collecting blocks, and the peer reduction unit. One to the window
of a core that holds a task is a Completer Abort, as R336 says of a peer (DEDUCED, log 109); anything else is an
Unsupported Request (log 23). -/
def State.peerRequest (s : State) (r : PcieReq) : State :=
  let n := match r.data with
    | some bs => bs.length
    | none => r.n
  if !s.inStage 1 || !s.peerBar (r.fn - 64) r.bar then s.unsupported
  else if s.peerBusy r.off n then s.aborted
  else if 0x78000000 ≤ r.off ∧ r.off + n ≤ 0x7D000000 then
    let a := 0x470000000000 + (r.off - 0x78000000)
    match r.data with
    | none => s.hostRead (.phys a) n
    | some bs => s.hostWrite 0 (.phys a) bs r.ep
  else match r.data with
    | some bs =>
      (match (if 0x68000000 ≤ r.off then s.resultAt (0x410000000000 + (r.off - 0x68000000)) n else none) with
       | some a => s.peerResult a bs r.ep
       | none =>
         if decide (0x68000000 ≤ r.off) && s.resultRefused (0x410000000000 + (r.off - 0x68000000)) n then s
         else s.unsupported)
    | none => s.unsupported

/-- PCIE_MEMORY_REQUEST (R333, R433, R437): functions 0 to 63 are those of the host port, and 64 + p stands for
peer port p. -/
def execPcieMemoryRequest (r : PcieReq) (s : State) : Out :=
  .next (if r.fn < 64 then s.hostRequest r else s.peerRequest r)

/-! ## AtomicOps -/

/-- What an AtomicOp leaves (R435): a is the addend, the new value, or the value compared, and b the new value
of CAS. -/
def pcieAtomicValue (op : PcieAtomicOp) (bits old a b : Nat) : Nat :=
  match op with
  | .fetchAdd => (old + a) % 2 ^ bits
  | .swap => a % 2 ^ bits
  | .cas => if old = a % 2 ^ bits then b % 2 ^ bits else old

/-- The bytes that an AtomicOp targets (R435): device memory through BAR2, or signal slots. -/
def State.atomicTarget (s : State) (q : PcieAtomic) : Option BarTarget :=
  if (q.size = 4 ∨ q.size = 8) ∧ q.off % q.size = 0 then
    match s.barTarget q.fn q.bar q.off q.size with
    | some (.phys a) => if a < gddrSize ∨ (0x430000000000 ≤ a ∧ a < 0x430000100000) then some (.phys a) else none
    | some (.slot c o) => some (.slot c o)
    | _ => none
  else none

/-- An AtomicOp of the host or of a peer names the window of a core that holds a task (R336). -/
def State.atomicBusy (s : State) (q : PcieAtomic) : Bool :=
  if 64 ≤ q.fn then s.inStage 1 && s.peerBar (q.fn - 64) q.bar && s.peerBusy q.off q.size
  else match s.barTarget q.fn q.bar q.off q.size with
    | some (.phys a) => s.busyWindow a
    | _ => false

/-- An AtomicOp (R435): its completion returns the old value; a listed block is read as poison and stays. One to the window of
a core that holds a task is a Completer Abort, whatever its form (R336; DEDUCED, log 109). -/
def State.hostAtomic (s : State) (q : PcieAtomic) : State :=
  let new := fun (old : List Byte) => bytesOfNat q.size (pcieAtomicValue q.op (8 * q.size) (natOfBytes old) q.a q.b)
  if s.atomicBusy q then s.aborted
  else match s.atomicTarget q with
  | none => s.unsupported
  | some .bell => s.unsupported
  | some (.slot c o) =>
    let old := s.ownSlots c o q.size
    (s.putOwnSlots c o (new old)).emit (.completion 0 old false)
  | some (.phys a) =>
    match s.physLoad a q.size with
    | (s, .ok old true) => s.emit (.completion 0 old true)
    | (s, .ok old false) => (s.physSave true q.fn a (new old) false).1.emit (.completion 0 old false)
    | (_, _) => s.unsupported

/-- PCIE_ATOMICOP (R333, R435). -/
def execPcieAtomicop (q : PcieAtomic) (s : State) : Out := .next (s.hostAtomic q)

/-- VQBELL (R434), where the virtual function is enabled; else an Unsupported Request (R465). -/
def execVqbell (vf : Nat) (q : BitVec 32) (s : State) : Out :=
  .next (if 1 ≤ vf ∧ s.hasFunction vf then s.vqbell vf (q.toNat % 4096) else s.unsupported)

/-- NumVFs is set, at most TotalVFs, once SR-IOV works (R433, R464). -/
def State.setNumVfs (s : State) (n : Nat) : State :=
  if s.mgmt.stage < 1 ∨ 63 < n then s else { s with numVfs := n }

/-- An entry of a function's table is masked, or unmasked: a message that it keeps pending then leaves (R436). A function
that does not answer gives an Unsupported Request (R465). -/
def State.maskEntry (s : State) (fn m : Nat) (masked : Bool) : State :=
  let v := msixKey fn m
  if !s.hasFunction fn then s.unsupported
  else if msixEntries fn ≤ m then s
  else
    let t := { s with msixOpen := setPut s.msixOpen v (!masked) }
    if !masked && setHas s.msixPend v then { t with msixPend := setDel s.msixPend v }.emit (.msix fn m) else t

/-- A read of a function's Pending Bit Array (R436). -/
def State.readPba (s : State) (fn : Nat) : State :=
  if s.hasFunction fn then s.emit (.completion 0 (s.msixPba fn) false) else s.unsupported

/-- PCIE_CONFIGURATION_REQUEST (R433, R436). -/
def execPcieConfigurationRequest (w : ConfigWrite) (s : State) : Out :=
  .next (if s.mgmt.inReset then s
    else match w with
      | .numVfs n => s.setNumVfs n
      | .mask fn m masked => s.maskEntry fn m masked
      | .pending fn => s.readPba fn)

/-! ## Links -/

/-- The highest speed code that a port attempts (R438). -/
def PciePort.maxSpeed (x : PciePort) : Nat :=
  match bits x.cfg.toNat 1 0 with
  | 0 => 7
  | 1 => 6
  | _ => 5

/-- LINK_TRAINING (R432, R438): speed codes 5 to 7 up to the cap, widths of x16, x8, x4, x2 and x1; the peer ports
work from stage 1 on (R464). -/
def execLinkTraining (port speed width : Nat) (s : State) : Out :=
  if 5 ≤ port then .fault (.noSuchUnit "port" port)
  else
    let x := s.port port
    .next (if 5 ≤ speed ∧ speed ≤ x.maxSpeed ∧ (width = 16 ∨ width = 8 ∨ width = 4 ∨ width = 2 ∨ width = 1) ∧
        s.mgmt.inReset = false ∧ (port = 0 ∨ 1 ≤ s.mgmt.stage) then
      s.putPort port { x with speed := speed, width := width } else s)

/-- The port that a waiting contribution has gone through (R439, R441). -/
def State.contributionPort (s : State) (w : Contribution) : Option Nat :=
  (s.rankPort (s.block w.block).home).map (fun c => if c = 5 then 0 else c)

/-- LINK_DOWN (R438, R441): the contributions sent through the port and not acknowledged fail with PEER. -/
def execLinkDown (port : Nat) (s : State) : Out :=
  if 5 ≤ port then .fault (.noSuchUnit "port" port)
  else
    let s := s.putPort port { s.port port with speed := 0, width := 0 }
    .next ((s.peer.waiting.filter (fun w => s.contributionPort w == some port)).foldl (fun s w =>
      if s.peer.waiting.contains w then s.acknowledge w kPeer else s) s)

/-! ## The peer reduction unit -/

/-- PEER_BLOCK_ARM (R440). -/
def execPeerBlockArm (b : Nat) (s : State) : Out :=
  if 4096 ≤ b then .fault (.noSuchUnit "block" b) else s.request 1 (·.armBlock b)

/-- PEER_BLOCK_CANCEL (R440). -/
def execPeerBlockCancel (b : Nat) (s : State) : Out :=
  if 4096 ≤ b then .fault (.noSuchUnit "block" b) else s.request 1 (·.cancelBlock b)

/-- A message of the unit reaches it (R442, R464): from stage 1 on, of the kind named. Another kind is another happening,
and KIND 3 and a message with more than 512 bytes of data are discarded (log 78). -/
def State.onMessage (s : State) (kind : Nat) (m : PeerMsg) (f : State → State) : Out :=
  .next (if s.inStage 1 && msgKind m == kind && decide ((msgData m).length ≤ 512) then f s else s)

/-- PEER_CONTRIB (R442, R443): a contribution arrives at the home through a port and is acknowledged. -/
def execPeerContrib (port : Nat) (m : PeerMsg) (s : State) : Out :=
  s.onMessage 0 m (fun s =>
    let r := s.contribute (msgRank m) (msgBlock m) (msgOffset m) (msgData m) m.ep
    r.1.emit (.peer port (peerMsg 1 (msgRank m) (msgBlock m) (msgOffset m) r.2 [] false)))

/-- PEER_ACK (R442): the first contribution of the block and offset that waits has its acknowledgement. -/
def execPeerAck (_port : Nat) (m : PeerMsg) (s : State) : Out :=
  s.onMessage 1 m (fun s =>
    match s.peer.waiting.find? (fun w => w.block == msgBlock m && w.offset == msgOffset m) with
    | some w => s.acknowledge w (msgFailure m)
    | none => s)

/-- PEER_DONE (R444): the result is complete on this member. -/
def execPeerDone (_port : Nat) (m : PeerMsg) (s : State) : Out :=
  s.onMessage 2 m (fun s => if (s.block (msgBlock m)).state = .collect then s.blockDone (msgBlock m) else s)

/-! ## Register writes -/

/-- REGISTER_WRITE (R347, R465): the host writes a word of a block of registers, or of the signal slots. -/
def execRegisterWrite (pa : Nat) (v : BitVec 32) (s : State) : Out :=
  if pa % 4 = 0 ∧ 0x420000000000 ≤ pa then s.request (stageOf pa) (·.hostWrite 0 (.phys pa) (bytesOfNat 4 v.toNat) false)
  else .next s.unsupported

end Sys2Proof.Machine
end

