-- ==== Sys2Proof/Machine/Dispatch.lean ====
section
/-! DEFINITION. One arm per row of the opcode table. -/

namespace Sys2Proof.Machine

/-- The meaning of an instruction or of a step of an agent. -/
def exec (i : Instr) (s : State) : Host.Outcome State Fault Refusal :=
  match i with
  | .add h w d a b => Sys2Proof.Machine.execAdd h w d a b s
  | .sub h w d a b => Sys2Proof.Machine.execSub h w d a b s
  | .and h w d a b => Sys2Proof.Machine.execAnd h w d a b s
  | .or h w d a b => Sys2Proof.Machine.execOr h w d a b s
  | .xor h w d a b => Sys2Proof.Machine.execXor h w d a b s
  | .andn h w d a b => Sys2Proof.Machine.execAndn h w d a b s
  | .shl h d a b => Sys2Proof.Machine.execShl h d a b s
  | .shr h d a b => Sys2Proof.Machine.execShr h d a b s
  | .sra h d a b => Sys2Proof.Machine.execSra h d a b s
  | .rot h d a b => Sys2Proof.Machine.execRot h d a b s
  | .min h d a b => Sys2Proof.Machine.execMin h d a b s
  | .max h d a b => Sys2Proof.Machine.execMax h d a b s
  | .minu h d a b => Sys2Proof.Machine.execMinu h d a b s
  | .maxu h d a b => Sys2Proof.Machine.execMaxu h d a b s
  | .cmpEq h w p a b => Sys2Proof.Machine.execCmpEq h w p a b s
  | .cmpNe h w p a b => Sys2Proof.Machine.execCmpNe h w p a b s
  | .cmpLt h w p a b => Sys2Proof.Machine.execCmpLt h w p a b s
  | .cmpLe h w p a b => Sys2Proof.Machine.execCmpLe h w p a b s
  | .cmpLtu h w p a b => Sys2Proof.Machine.execCmpLtu h w p a b s
  | .cmpLeu h w p a b => Sys2Proof.Machine.execCmpLeu h w p a b s
  | .sel h n w d a b => Sys2Proof.Machine.execSel h n w d a b s
  | .mul h d a b => Sys2Proof.Machine.execMul h d a b s
  | .mulh h d a b => Sys2Proof.Machine.execMulh h d a b s
  | .mulhu h d a b => Sys2Proof.Machine.execMulhu h d a b s
  | .div h d a b => Sys2Proof.Machine.execDiv h d a b s
  | .divu h d a b => Sys2Proof.Machine.execDivu h d a b s
  | .rem h d a b => Sys2Proof.Machine.execRem h d a b s
  | .remu h d a b => Sys2Proof.Machine.execRemu h d a b s
  | .clz h d a => Sys2Proof.Machine.execClz h d a s
  | .ctz h d a => Sys2Proof.Machine.execCtz h d a s
  | .popc h d a => Sys2Proof.Machine.execPopc h d a s
  | .brev h d a => Sys2Proof.Machine.execBrev h d a s
  | .bilv2 h d a b => Sys2Proof.Machine.execBilv2 h d a b s
  | .bilv3 h d a b => Sys2Proof.Machine.execBilv3 h d a b s
  | .bdlv2 h d a b => Sys2Proof.Machine.execBdlv2 h d a b s
  | .bdlv3 h d a b => Sys2Proof.Machine.execBdlv3 h d a b s
  | .bfx h d a b => Sys2Proof.Machine.execBfx h d a b s
  | .bfi h d a b => Sys2Proof.Machine.execBfi h d a b s
  | .fadd h d a b => Sys2Proof.Machine.execFadd h d a b s
  | .fmul h d a b => Sys2Proof.Machine.execFmul h d a b s
  | .fma h d a b => Sys2Proof.Machine.execFma h d a b s
  | .fmin h d a b => Sys2Proof.Machine.execFmin h d a b s
  | .fmax h d a b => Sys2Proof.Machine.execFmax h d a b s
  | .fcvtFI h d a => Sys2Proof.Machine.execFcvtFI h d a s
  | .fcvtFU h d a => Sys2Proof.Machine.execFcvtFU h d a s
  | .fcvtIF h d a => Sys2Proof.Machine.execFcvtIF h d a s
  | .fcvtUF h d a => Sys2Proof.Machine.execFcvtUF h d a s
  | .fcmpEq h p a b => Sys2Proof.Machine.execFcmpEq h p a b s
  | .fcmpLt h p a b => Sys2Proof.Machine.execFcmpLt h p a b s
  | .fcmpLe h p a b => Sys2Proof.Machine.execFcmpLe h p a b s
  | .fcmpUn h p a b => Sys2Proof.Machine.execFcmpUn h p a b s
  | .addi h d a im => Sys2Proof.Machine.execAddi h d a im s
  | .andi h d a im => Sys2Proof.Machine.execAndi h d a im s
  | .ori h d a im => Sys2Proof.Machine.execOri h d a im s
  | .xori h d a im => Sys2Proof.Machine.execXori h d a im s
  | .shli h d a ss => Sys2Proof.Machine.execShli h d a ss s
  | .shri h d a ss => Sys2Proof.Machine.execShri h d a ss s
  | .srai h d a ss => Sys2Proof.Machine.execSrai h d a ss s
  | .movi h d im => Sys2Proof.Machine.execMovi h d im s
  | .cmpiEq h p a im => Sys2Proof.Machine.execCmpiEq h p a im s
  | .cmpiNe h p a im => Sys2Proof.Machine.execCmpiNe h p a im s
  | .cmpiLt h p a im => Sys2Proof.Machine.execCmpiLt h p a im s
  | .cmpiLe h p a im => Sys2Proof.Machine.execCmpiLe h p a im s
  | .cmpiLtu h p a im => Sys2Proof.Machine.execCmpiLtu h p a im s
  | .cmpiLeu h p a im => Sys2Proof.Machine.execCmpiLeu h p a im s
  | .ldB h d a o => Sys2Proof.Machine.execLdB h d a o s
  | .ldH h d a o => Sys2Proof.Machine.execLdH h d a o s
  | .ld h w d a o => Sys2Proof.Machine.execLd h w d a o s
  | .ldW h w d a o => Sys2Proof.Machine.execLdW h w d a o s
  | .ldC h w d a o => Sys2Proof.Machine.execLdC h w d a o s
  | .stB h d a o => Sys2Proof.Machine.execStB h d a o s
  | .stH h d a o => Sys2Proof.Machine.execStH h d a o s
  | .st h w d a o => Sys2Proof.Machine.execSt h w d a o s
  | .stE h w d a o => Sys2Proof.Machine.execStE h w d a o s
  | .ldp h w d a o => Sys2Proof.Machine.execLdp h w d a o s
  | .ldh h x a o => Sys2Proof.Machine.execLdh h x a o s
  | .sth h x a o => Sys2Proof.Machine.execSth h x a o s
  | .feq h p a o => Sys2Proof.Machine.execFeq h p a o s
  | .feset h d a o => Sys2Proof.Machine.execFeset h d a o s
  | .feclr h d a o => Sys2Proof.Machine.execFeclr h d a o s
  | .br h o => Sys2Proof.Machine.execBr h o s
  | .brl h o => Sys2Proof.Machine.execBrl h o s
  | .loop h a e => Sys2Proof.Machine.execLoop h a e s
  | .loopi h c e => Sys2Proof.Machine.execLoopi h c e s
  | .jr h a o => Sys2Proof.Machine.execJr h a o s
  | .jrl h a o => Sys2Proof.Machine.execJrl h a o s
  | .csrr h w d c => Sys2Proof.Machine.execCsrr h w d c s
  | .csrw h w d c => Sys2Proof.Machine.execCsrw h w d c s
  | .csrs h w d c => Sys2Proof.Machine.execCsrs h w d c s
  | .csrc h w d c => Sys2Proof.Machine.execCsrc h w d c s
  | .pand h d a b => Sys2Proof.Machine.execPand h d a b s
  | .por h d a b => Sys2Proof.Machine.execPor h d a b s
  | .pxor h d a b => Sys2Proof.Machine.execPxor h d a b s
  | .pnot h d a => Sys2Proof.Machine.execPnot h d a s
  | .pmov h d a => Sys2Proof.Machine.execPmov h d a s
  | .nop h => Sys2Proof.Machine.execNop h s
  | .sync h => Sys2Proof.Machine.execSync h s
  | .iter h => Sys2Proof.Machine.execIter h s
  | .eret h => Sys2Proof.Machine.execEret h s
  | .svc h c => Sys2Proof.Machine.execSvc h c s
  | .bkpt h c => Sys2Proof.Machine.execBkpt h c s
  | .qpop h d n => Sys2Proof.Machine.execQpop h d n s
  | .qstat h d n => Sys2Proof.Machine.execQstat h d n s
  | .rng h d a => Sys2Proof.Machine.execRng h d a s
  | .lendM h n => Sys2Proof.Machine.execLendM h n s
  | .lendV h n => Sys2Proof.Machine.execLendV h n s
  | .vadd h d a b ss => Sys2Proof.Machine.execVadd h d a b ss s
  | .vsub h d a b ss => Sys2Proof.Machine.execVsub h d a b ss s
  | .vmul h d a b ss => Sys2Proof.Machine.execVmul h d a b ss s
  | .vfma h d a b ss => Sys2Proof.Machine.execVfma h d a b ss s
  | .vmin h d a b ss => Sys2Proof.Machine.execVmin h d a b ss s
  | .vmax h d a b ss => Sys2Proof.Machine.execVmax h d a b ss s
  | .vabs h d a => Sys2Proof.Machine.execVabs h d a s
  | .vneg h d a => Sys2Proof.Machine.execVneg h d a s
  | .vrcp h d a => Sys2Proof.Machine.execVrcp h d a s
  | .vrsq h d a => Sys2Proof.Machine.execVrsq h d a s
  | .vexp2 h d a => Sys2Proof.Machine.execVexp2 h d a s
  | .vlog2 h d a => Sys2Proof.Machine.execVlog2 h d a s
  | .vsin h d a => Sys2Proof.Machine.execVsin h d a s
  | .vcos h d a => Sys2Proof.Machine.execVcos h d a s
  | .vtanh h d a => Sys2Proof.Machine.execVtanh h d a s
  | .vsigm h d a => Sys2Proof.Machine.execVsigm h d a s
  | .viadd h d a b ss => Sys2Proof.Machine.execViadd h d a b ss s
  | .visub h d a b ss => Sys2Proof.Machine.execVisub h d a b ss s
  | .vimul h d a b ss => Sys2Proof.Machine.execVimul h d a b ss s
  | .vand h d a b ss => Sys2Proof.Machine.execVand h d a b ss s
  | .vor h d a b ss => Sys2Proof.Machine.execVor h d a b ss s
  | .vxor h d a b ss => Sys2Proof.Machine.execVxor h d a b ss s
  | .vshl h d a b ss => Sys2Proof.Machine.execVshl h d a b ss s
  | .vshr h d a b ss => Sys2Proof.Machine.execVshr h d a b ss s
  | .vsra h d a b ss => Sys2Proof.Machine.execVsra h d a b ss s
  | .vclz h d a => Sys2Proof.Machine.execVclz h d a s
  | .vpopc h d a => Sys2Proof.Machine.execVpopc h d a s
  | .vbilv h d a b m => Sys2Proof.Machine.execVbilv h d a b m s
  | .vcmpEq h d a b ss => Sys2Proof.Machine.execVcmpEq h d a b ss s
  | .vcmpNe h d a b ss => Sys2Proof.Machine.execVcmpNe h d a b ss s
  | .vcmpLt h d a b ss => Sys2Proof.Machine.execVcmpLt h d a b ss s
  | .vcmpLe h d a b ss => Sys2Proof.Machine.execVcmpLe h d a b ss s
  | .vmsel h d a k ss => Sys2Proof.Machine.execVmsel h d a k ss s
  | .vmselM h d a k => Sys2Proof.Machine.execVmselM h d a k s
  | .vcvt h d a ss m => Sys2Proof.Machine.execVcvt h d a ss m s
  | .vqnt h d a ss => Sys2Proof.Machine.execVqnt h d a ss s
  | .vdqt h d a ss => Sys2Proof.Machine.execVdqt h d a ss s
  | .vpermb h d a b => Sys2Proof.Machine.execVpermb h d a b s
  | .vshuf h d a b => Sys2Proof.Machine.execVshuf h d a b s
  | .vbcast h d a ss => Sys2Proof.Machine.execVbcast h d a ss s
  | .vmov h d a => Sys2Proof.Machine.execVmov h d a s
  | .vrsum h d a => Sys2Proof.Machine.execVrsum h d a s
  | .vrsumQ h n a => Sys2Proof.Machine.execVrsumQ h n a s
  | .vrmax h d a => Sys2Proof.Machine.execVrmax h d a s
  | .vrmaxQ h n a => Sys2Proof.Machine.execVrmaxQ h n a s
  | .vrmin h d a => Sys2Proof.Machine.execVrmin h d a s
  | .vrminQ h n a => Sys2Proof.Machine.execVrminQ h n a s
  | .vscan h d a m => Sys2Proof.Machine.execVscan h d a m s
  | .vgath h d a b => Sys2Proof.Machine.execVgath h d a b s
  | .vscat h d a b => Sys2Proof.Machine.execVscat h d a b s
  | .vrng h d ss => Sys2Proof.Machine.execVrng h d ss s
  | .vdrop h d ss => Sys2Proof.Machine.execVdrop h d ss s
  | .vnorm h d a b ss => Sys2Proof.Machine.execVnorm h d a b ss s
  | .vsmax h d a ss => Sys2Proof.Machine.execVsmax h d a ss s
  | .mcfg h m k => Sys2Proof.Machine.execMcfg h m k s
  | .mwl h x => Sys2Proof.Machine.execMwl h x s
  | .mws h => Sys2Proof.Machine.execMws h s
  | .mms h x k p ss => Sys2Proof.Machine.execMms h x k p ss s
  | .mmsz h x k p ss => Sys2Proof.Machine.execMmsz h x k p ss s
  | .msclC h x k => Sys2Proof.Machine.execMsclC h x k s
  | .msclR h x k => Sys2Proof.Machine.execMsclR h x k s
  | .msclK h x => Sys2Proof.Machine.execMsclK h x s
  | .mza h k n => Sys2Proof.Machine.execMza h k n s
  | .mrd h x k im m => Sys2Proof.Machine.execMrd h x k im m s
  | .mwr h x k im => Sys2Proof.Machine.execMwr h x k im s
  | .mdrn h => Sys2Proof.Machine.execMdrn h s
  | .mstat h n => Sys2Proof.Machine.execMstat h n s
  | .xcpy h d ss => Sys2Proof.Machine.execXcpy h d ss s
  | .xtrn h d ss => Sys2Proof.Machine.execXtrn h d ss s
  | .xfill h d a => Sys2Proof.Machine.execXfill h d a s
  | .xput h ss a c q => Sys2Proof.Machine.execXput h ss a c q s
  | .xget h d a c q => Sys2Proof.Machine.execXget h d a c q s
  | .xpf h a c => Sys2Proof.Machine.execXpf h a c s
  | .xld h d a c q => Sys2Proof.Machine.execXld h d a c q s
  | .xst h ss a c q => Sys2Proof.Machine.execXst h ss a c q s
  | .xldg h d a c m => Sys2Proof.Machine.execXldg h d a c m s
  | .xbc h ss a c q => Sys2Proof.Machine.execXbc h ss a c q s
  | .xatmGrp h o ss a c m => Sys2Proof.Machine.execXatmGrp h o ss a c m s
  | .xatmGang h o ss a c m => Sys2Proof.Machine.execXatmGang h o ss a c m s
  | .xatmDev h o ss a c m => Sys2Proof.Machine.execXatmDev h o ss a c m s
  | .xatmSys h o ss a c m => Sys2Proof.Machine.execXatmSys h o ss a c m s
  | .xgth h d ss a c => Sys2Proof.Machine.execXgth h d ss a c s
  | .xenc h ss a c e => Sys2Proof.Machine.execXenc h ss a c e s
  | .xdec h d a c => Sys2Proof.Machine.execXdec h d a c s
  | .xovl h a c => Sys2Proof.Machine.execXovl h a c s
  | .xsig h a c m => Sys2Proof.Machine.execXsig h a c m s
  | .xlaunch h ss a c => Sys2Proof.Machine.execXlaunch h ss a c s
  | .xarm h n a => Sys2Proof.Machine.execXarm h n a s
  | .xarmImm h n => Sys2Proof.Machine.execXarmImm h n s
  | .xwait h a c => Sys2Proof.Machine.execXwait h a c s
  | .xwaitL h n => Sys2Proof.Machine.execXwaitL h n s
  | .xfence h c => Sys2Proof.Machine.execXfence h c s
  | .xrdev h ss a c m => Sys2Proof.Machine.execXrdev h ss a c m s
  | .impreciseReportTaken p => Sys2Proof.Machine.execImpreciseReportTaken p s
  | .tokenWaitSatisfied p => Sys2Proof.Machine.execTokenWaitSatisfied p s
  | .dispatchQueueRoom p => Sys2Proof.Machine.execDispatchQueueRoom p s
  | .fullEmptyWaitSatisfied p => Sys2Proof.Machine.execFullEmptyWaitSatisfied p s
  | .qpopEntryArrives p => Sys2Proof.Machine.execQpopEntryArrives p s
  | .syncDrained p => Sys2Proof.Machine.execSyncDrained p s
  | .vStep p => Sys2Proof.Machine.execVStep p s
  | .mStep p k => Sys2Proof.Machine.execMStep p k s
  | .lStep p => Sys2Proof.Machine.execLStep p s
  | .holdUntilEntryFree p e => Sys2Proof.Machine.execHoldUntilEntryFree p e s
  | .eInstructionBegin p => Sys2Proof.Machine.execEInstructionBegin p s
  | .walkEnd k => Sys2Proof.Machine.execWalkEnd k s
  | .transferPieceLanding p t k => Sys2Proof.Machine.execTransferPieceLanding p t k s
  | .transferComplete p => Sys2Proof.Machine.execTransferComplete p s
  | .xwaitSatisfied p => Sys2Proof.Machine.execXwaitSatisfied p s
  | .xfenceDone p => Sys2Proof.Machine.execXfenceDone p s
  | .xovlHeaderArrives p => Sys2Proof.Machine.execXovlHeaderArrives p s
  | .xovlImageComplete p => Sys2Proof.Machine.execXovlImageComplete p s
  | .phaseAdvanceOdd => Sys2Proof.Machine.execPhaseAdvanceOdd s
  | .quietSweepBegin => Sys2Proof.Machine.execQuietSweepBegin s
  | .phaseAdvanceEven emeas => Sys2Proof.Machine.execPhaseAdvanceEven emeas s
  | .phaseBusDelivery p => Sys2Proof.Machine.execPhaseBusDelivery p s
  | .fillGranuleArrives k => Sys2Proof.Machine.execFillGranuleArrives k s
  | .writeBackDrain k => Sys2Proof.Machine.execWriteBackDrain k s
  | .computeTimeoutExpiry => Sys2Proof.Machine.execComputeTimeoutExpiry s
  | .exchangeTimeoutExpiry => Sys2Proof.Machine.execExchangeTimeoutExpiry s
  | .watchdogExpiry => Sys2Proof.Machine.execWatchdogExpiry s
  | .registerParityError p => Sys2Proof.Machine.execRegisterParityError p s
  | .ictlWrite v => Sys2Proof.Machine.execIctlWrite v s
  | .shootdownPage asid => Sys2Proof.Machine.execShootdownPage asid s
  | .shootdownRange force asid => Sys2Proof.Machine.execShootdownRange force asid s
  | .shootdownAsid force asid => Sys2Proof.Machine.execShootdownAsid force asid s
  | .shootdownAll force => Sys2Proof.Machine.execShootdownAll force s
  | .counterFlush => Sys2Proof.Machine.execCounterFlush s
  | .shootdownDone => Sys2Proof.Machine.execShootdownDone s
  | .shootdownDrained => Sys2Proof.Machine.execShootdownDrained s
  | .qbell q => Sys2Proof.Machine.execQbell q s
  | .grun v => Sys2Proof.Machine.execGrun v s
  | .ctxkill v => Sys2Proof.Machine.execCtxkill v s
  | .preq v => Sys2Proof.Machine.execPreq v s
  | .preqCancel v => Sys2Proof.Machine.execPreqCancel v s
  | .plshape v => Sys2Proof.Machine.execPlshape v s
  | .lbgo => Sys2Proof.Machine.execLbgo s
  | .launchEnterCompute => Sys2Proof.Machine.execLaunchEnterCompute s
  | .residencyFilled k => Sys2Proof.Machine.execResidencyFilled k s
  | .hartRun v => Sys2Proof.Machine.execHartRun v s
  | .devt0 hart rd => Sys2Proof.Machine.execDevt0 hart rd s
  | .dtime hart rd => Sys2Proof.Machine.execDtime hart rd s
  | .dphase hart rd => Sys2Proof.Machine.execDphase hart rd s
  | .atcmd hart v => Sys2Proof.Machine.execAtcmd hart v s
  | .dlw3Commit v => Sys2Proof.Machine.execDlw3Commit v s
  | .dlsizeWrite v => Sys2Proof.Machine.execDlsizeWrite v s
  | .ssins v => Sys2Proof.Machine.execSsins v s
  | .sspop => Sys2Proof.Machine.execSspop s
  | .ssdel v => Sys2Proof.Machine.execSsdel v s
  | .slackneg => Sys2Proof.Machine.execSlackneg s
  | .streamRelease sd => Sys2Proof.Machine.execStreamRelease sd s
  | .sbcfgWrite n v => Sys2Proof.Machine.execSbcfgWrite n v s
  | .sbret n v => Sys2Proof.Machine.execSbret n v s
  | .sbpass n => Sys2Proof.Machine.execSbpass n s
  | .sbrel n => Sys2Proof.Machine.execSbrel n s
  | .mirrorWrite l v => Sys2Proof.Machine.execMirrorWrite l v s
  | .codecEnable e => Sys2Proof.Machine.execCodecEnable e s
  | .codecDisable e => Sys2Proof.Machine.execCodecDisable e s
  | .encodeBlockRow e => Sys2Proof.Machine.execEncodeBlockRow e s
  | .chunkWrite e => Sys2Proof.Machine.execChunkWrite e s
  | .msixCoalesceTimeout e => Sys2Proof.Machine.execMsixCoalesceTimeout e s
  | .decodeChunk d => Sys2Proof.Machine.execDecodeChunk d s
  | .pcieMemoryRequest r => Sys2Proof.Machine.execPcieMemoryRequest r s
  | .pcieAtomicop r => Sys2Proof.Machine.execPcieAtomicop r s
  | .vqbell vf q => Sys2Proof.Machine.execVqbell vf q s
  | .linkTraining port speed width => Sys2Proof.Machine.execLinkTraining port speed width s
  | .peerBlockArm b => Sys2Proof.Machine.execPeerBlockArm b s
  | .peerBlockCancel b => Sys2Proof.Machine.execPeerBlockCancel b s
  | .peerContrib port m => Sys2Proof.Machine.execPeerContrib port m s
  | .peerAck port m => Sys2Proof.Machine.execPeerAck port m s
  | .peerDone port m => Sys2Proof.Machine.execPeerDone port m s
  | .dcmdHalt v => Sys2Proof.Machine.execDcmdHalt v s
  | .dcmdResume v => Sys2Proof.Machine.execDcmdResume v s
  | .dcmdStep v => Sys2Proof.Machine.execDcmdStep v s
  | .dcmdStepD v => Sys2Proof.Machine.execDcmdStepD v s
  | .stepStop p => Sys2Proof.Machine.execStepStop p s
  | .stopArm v => Sys2Proof.Machine.execStopArm v s
  | .stopFires p => Sys2Proof.Machine.execStopFires p s
  | .debugWindowAccess p off n data => Sys2Proof.Machine.execDebugWindowAccess p off n data s
  | .traceRecordWrite p => Sys2Proof.Machine.execTraceRecordWrite p s
  | .resetRelease => Sys2Proof.Machine.execResetRelease s
  | .stage1Entry => Sys2Proof.Machine.execStage1Entry s
  | .stage2Entry => Sys2Proof.Machine.execStage2Entry s
  | .loadfw => Sys2Proof.Machine.execLoadfw s
  | .writefw => Sys2Proof.Machine.execWritefw s
  | .loaduc => Sys2Proof.Machine.execLoaduc s
  | .setowner => Sys2Proof.Machine.execSetowner s
  | .mailboxReset => Sys2Proof.Machine.execMailboxReset s
  | .getVersion => Sys2Proof.Machine.execGetVersion s
  | .getCapabilities => Sys2Proof.Machine.execGetCapabilities s
  | .negotiateAlgorithms sigAlgs => Sys2Proof.Machine.execNegotiateAlgorithms sigAlgs s
  | .getDigests => Sys2Proof.Machine.execGetDigests s
  | .getCertificate slot => Sys2Proof.Machine.execGetCertificate slot s
  | .challenge nonce => Sys2Proof.Machine.execChallenge nonce s
  | .getMeasurements index nonce => Sys2Proof.Machine.execGetMeasurements index nonce s
  | .powerSample mw => Sys2Proof.Machine.execPowerSample mw s
  | .railOvercurrent rail current => Sys2Proof.Machine.execRailOvercurrent rail current s
  | .overcurrentRequestEnd => Sys2Proof.Machine.execOvercurrentRequestEnd s
  | .thermalLimit degc => Sys2Proof.Machine.execThermalLimit degc s
  | .droopAlarm v => Sys2Proof.Machine.execDroopAlarm v s
  | .halfArraySpanEnd p => Sys2Proof.Machine.execHalfArraySpanEnd p s
  | .registerWrite pa v => Sys2Proof.Machine.execRegisterWrite pa v s
  | .unallocatedWord sub etval => Sys2Proof.Machine.execUnallocatedWord sub etval s
  | .instructionFetchFault word cause => Sys2Proof.Machine.execInstructionFetchFault word cause s
  | .hartLoadStore hart addr n signed rd store => Sys2Proof.Machine.execHartLoadStore hart addr n signed rd store s
  | .sramBitError site => Sys2Proof.Machine.execSramBitError site s
  | .meshLinkUncorrectableError p t k => Sys2Proof.Machine.execMeshLinkUncorrectableError p t k s
  | .linkDown port => Sys2Proof.Machine.execLinkDown port s
  | .pcieConfigurationRequest w => Sys2Proof.Machine.execPcieConfigurationRequest w s
  | .droopAlarmDeassert v => Sys2Proof.Machine.execDroopAlarmDeassert v s
  | .decoderRowOutput d => Sys2Proof.Machine.execDecoderRowOutput d s
  | .resetAssertion => Sys2Proof.Machine.execResetAssertion s

end Sys2Proof.Machine
end

