-- ==== Sys2Proof/Machine/Microcode.lean ====
section
/-! DEFINITION. How the shipped microcode starts the records of a queue (13 R386, R387, R397 to R400): ring order, AFTER,
EN and PAUSE, deadlines and sorter keys, deferral for energy, and the launch at the origin that a search finds. -/

namespace Sys2Proof.Machine

/-- A deadline that is none (R385). -/
def noDeadline : Nat := 2 ^ 64 - 1

/-- The deadline of record i of a queue (R385, R399): its own, or the scheduled release of its stream's frame and
DLOFF; none without a stream. -/
def State.taskDeadline (s : State) (qcb i : Nat) : Nat :=
  let d := s.gddrLE (s.recordAddr qcb i + 0x28) 8
  let sd := s.qStream qcb
  if d ≠ 0 then d
  else if sd = 0 then noDeadline
  else s.gddrLE (sd + 0x08) 8 - s.gddrLE sd 8 + s.gddrLE (sd + 0x10) 4

/-- The duration of record i of a queue in ns (R397, R399): 256 EST, or COST of the current rung where the stream gives
the deadline. -/
def State.taskCost (s : State) (qcb i : Nat) : Nat :=
  let sd := s.qStream qcb
  if s.gddrLE (s.recordAddr qcb i + 0x28) 8 = 0 ∧ sd ≠ 0 then s.sdCost sd (s.sdRung sd)
  else 256 * s.gddrLE (s.recordAddr qcb i + 0x38) 2

/-- The sorter key of record i of a queue (R397, R405). -/
def State.taskKey (s : State) (qcb i : Nat) : Nat :=
  let d := s.taskDeadline qcb i
  if noDeadline ≤ d then noDeadline else d - s.taskCost qcb i

/-- The record at HEAD may start (R387): EN without PAUSE, a record between HEAD and TAIL, and with AFTER nothing of the
queue that has not completed. -/
def State.headStarts (s : State) (qcb : Nat) : Bool :=
  s.qFlags qcb % 2 == 1 && bits (s.qFlags qcb) 2 2 == 0 && s.qHead qcb != s.qTail qcb &&
  (bits (s.gddrLE (s.recordAddr qcb (s.qHead qcb) + 0x08) 4) 24 24 == 0 || s.qOldest qcb == s.qHead qcb)

/-- A task with slack left whose placement would take the energy placed above EALLOW is deferred (R400). -/
def State.defers (s : State) (qcb i : Nat) : Bool :=
  decide (s.time.toNat ≤ s.taskKey qcb i) &&
  decide (s.dist.eallowd.toNat < s.dist.placed + 16 * s.gddrLE (s.recordAddr qcb i + 0x3A) 2)

/-- A record is deferred for energy (R400): one defer-for-energy record for each task and publication. -/
def State.deferTask (s : State) (q qcb i : Nat) : State :=
  if s.dist.deferred.contains (q, i) then s
  else State.logTask { s with dist := { s.dist with deferred := s.dist.deferred ++ [(q, i)] } } 6 q i (s.taskKey qcb i)

/-- The launch bus's registers for record i of a queue at an origin (R379). -/
def State.armLaunch (s : State) (q qcb i origin : Nat) : State :=
  { s with dist := { s.dist with
      lbrec := BitVec.ofNat 64 (s.recordAddr qcb i), lbarg := BitVec.ofNat 32 (origin + 2 ^ 16 * q)
      lbidx := BitVec.ofNat 32 i, lbkey := BitVec.ofNat 64 (s.taskKey qcb i) } }

/-- The microcode reads the first bytes of the parameter block into LBPARAM (R386); none where the read fails. -/
def State.readParams (s : State) (qcb : Nat) : State × Bool :=
  match s.busRead (s.qCtx qcb) (s.qAsid qcb) s.recParam (min 256 (4 * s.recPsize)) with
  | (s, some bs) => ({ s with dist := { s.dist with lbparam := writeBytes s.dist.lbparam 0 bs } }, true)
  | (s, none) => (s, false)

/-- The shipped microcode starts the record at the head of queue q (R387): what the harts do with it while they run;
none where it cannot start. -/
def State.startHead (s : State) (q : Nat) : Option State :=
  match s.dirEntry q with
  | none => none
  | some qcb =>
    let i := s.qHead qcb
    let n := bits (s.gddrLE (s.recordAddr qcb i + 0x3E) 2) 10 0 + 1
    if !s.dist.run || !s.qcbOk qcb || s.dist.launchBusy || !s.inStage 2 || !s.headStarts qcb then none
    else if s.defers qcb i then some (s.deferTask q qcb i)
    else (s.findOrigin n).map (fun o =>
      match (s.armLaunch q qcb i o).readParams qcb with
      | (s, true) => s.launchGo
      | (s, false) => s.badRecord (some (q, qcb)))

/-- The turn of the shipped microcode at queue q. -/
def startTurn (q : Nat) (s : State) : Out := onDevice s (fun s => s.startHead (q % 4096))

end Sys2Proof.Machine
end

