-- ==== Sys2Proof/Machine/Rv32.lean ====
section
/-! DEFINITION. The instructions that a hart of the distributor runs (13 R376 to R378): RV32I, M, C, Zicsr and machine
mode. R376 names these parts of the RISC-V specifications and does not repeat them; what they say is taken from there
(log 14). -/

namespace Sys2Proof.Machine

/-- An instruction of R376, a compressed one as the instruction it stands for. Numbers of functions are those of the
RISC-V encoding; immediates are signed where it extends their sign. -/
inductive Rv where
  | lui (rd imm : Nat)
  | auipc (rd imm : Nat)
  | jal (rd : Nat) (off : Int)
  | jalr (rd rs1 : Nat) (off : Int)
  | branch (f rs1 rs2 : Nat) (off : Int)
  | load (f rd rs1 : Nat) (off : Int)
  | store (f rs1 rs2 : Nat) (off : Int)
  | opImm (f : Nat) (alt : Bool) (rd rs1 : Nat) (imm : Int)
  | op (f : Nat) (alt : Bool) (rd rs1 rs2 : Nat)
  | mulDiv (f rd rs1 rs2 : Nat)
  | fence
  | csr (f rd rs1 n : Nat)
  | ecall
  | ebreak
  | mret
  | wfi
deriving DecidableEq, Repr

/-! ## Encodings -/

/-- An n-bit field with its sign. -/
def rvSigned (n v : Nat) : Int := if 2 ^ (n - 1) ≤ v then (v : Int) - 2 ^ n else v

/-- A 32-bit word, where it is an instruction of R376, or FENCE.I, which R332 names and which changes nothing (DEDUCED, log 120). -/
def rvDecode32 (w : Nat) : Option Rv :=
  let rd := bits w 11 7
  let rs1 := bits w 19 15
  let rs2 := bits w 24 20
  let f := bits w 14 12
  let f7 := bits w 31 25
  let immI := rvSigned 12 (bits w 31 20)
  match bits w 6 0 with
  | 0x37 => some (.lui rd (bits w 31 12 * 4096))
  | 0x17 => some (.auipc rd (bits w 31 12 * 4096))
  | 0x6F => some (.jal rd (rvSigned 21 (bits w 31 31 * 2 ^ 20 + bits w 19 12 * 2 ^ 12 + bits w 20 20 * 2 ^ 11 + bits w 30 21 * 2)))
  | 0x67 => if f = 0 then some (.jalr rd rs1 immI) else none
  | 0x63 =>
    if f = 2 ∨ f = 3 then none
    else some (.branch f rs1 rs2
      (rvSigned 13 (bits w 31 31 * 2 ^ 12 + bits w 7 7 * 2 ^ 11 + bits w 30 25 * 2 ^ 5 + bits w 11 8 * 2)))
  | 0x03 => if f = 3 ∨ 6 ≤ f then none else some (.load f rd rs1 immI)
  | 0x23 => if 3 ≤ f then none else some (.store f rs1 rs2 (rvSigned 12 (f7 * 32 + rd)))
  | 0x13 =>
    if f = 1 then (if f7 = 0 then some (.opImm 1 false rd rs1 rs2) else none)
    else if f = 5 then (if f7 = 0 ∨ f7 = 32 then some (.opImm 5 (f7 = 32) rd rs1 rs2) else none)
    else some (.opImm f false rd rs1 immI)
  | 0x33 =>
    if f7 = 1 then some (.mulDiv f rd rs1 rs2)
    else if f7 = 0 then some (.op f false rd rs1 rs2)
    else if f7 = 32 ∧ (f = 0 ∨ f = 5) then some (.op f true rd rs1 rs2)
    else none
  | 0x0F => if f ≤ 1 then some .fence else none
  | 0x73 =>
    if f = 0 then
      (if w = 0x00000073 then some .ecall
      else if w = 0x00100073 then some .ebreak
      else if w = 0x30200073 then some .mret
      else if w = 0x10500073 then some .wfi
      else none)
    else if f = 4 then none
    else some (.csr f rd rs1 (bits w 31 20))
  | _ => none

/-- The offset of C.J and C.JAL. -/
def rvJumpOff (h : Nat) : Int :=
  rvSigned 12 (bits h 12 12 * 2 ^ 11 + bits h 11 11 * 2 ^ 4 + bits h 10 9 * 2 ^ 8 + bits h 8 8 * 2 ^ 10 +
    bits h 7 7 * 2 ^ 6 + bits h 6 6 * 2 ^ 7 + bits h 5 3 * 2 + bits h 2 2 * 2 ^ 5)

/-- The offset of C.BEQZ and C.BNEZ. -/
def rvBranchOff (h : Nat) : Int :=
  rvSigned 9 (bits h 12 12 * 2 ^ 8 + bits h 11 10 * 2 ^ 3 + bits h 6 5 * 2 ^ 6 + bits h 4 3 * 2 + bits h 2 2 * 2 ^ 5)

/-- A compressed instruction of quadrant 1. -/
def rvDecodeC1 (h : Nat) : Option Rv :=
  let rd := bits h 11 7
  let rdc := 8 + bits h 9 7
  let rsc := 8 + bits h 4 2
  let u := bits h 12 12 * 32 + bits h 6 2
  let imm := rvSigned 6 u
  match bits h 15 13 with
  | 0 => some (.opImm 0 false rd rd imm)
  | 1 => some (.jal 1 (rvJumpOff h))
  | 2 => some (.opImm 0 false rd 0 imm)
  | 3 =>
    if u = 0 then none
    else if rd = 2 then
      some (.opImm 0 false 2 2 (rvSigned 10 (bits h 12 12 * 2 ^ 9 + bits h 6 6 * 2 ^ 4 + bits h 5 5 * 2 ^ 6 +
        bits h 4 3 * 2 ^ 7 + bits h 2 2 * 2 ^ 5)))
    else some (.lui rd ((imm * 4096) % 2 ^ 32).toNat)
  | 4 =>
    match bits h 11 10 with
    | 0 => if u < 32 then some (.opImm 5 false rdc rdc u) else none
    | 1 => if u < 32 then some (.opImm 5 true rdc rdc u) else none
    | 2 => some (.opImm 7 false rdc rdc imm)
    | _ =>
      if 32 ≤ u then none
      else
        match bits h 6 5 with
        | 0 => some (.op 0 true rdc rdc rsc)
        | 1 => some (.op 4 false rdc rdc rsc)
        | 2 => some (.op 6 false rdc rdc rsc)
        | _ => some (.op 7 false rdc rdc rsc)
  | 5 => some (.jal 0 (rvJumpOff h))
  | 6 => some (.branch 0 rdc 0 (rvBranchOff h))
  | _ => some (.branch 1 rdc 0 (rvBranchOff h))

/-- A half-word, where it is a compressed instruction of R376. -/
def rvDecode16 (h : Nat) : Option Rv :=
  let rd := bits h 11 7
  let rs2 := bits h 6 2
  let ra := 8 + bits h 9 7
  let rb := 8 + bits h 4 2
  let wordOff := bits h 12 10 * 2 ^ 3 + bits h 6 6 * 2 ^ 2 + bits h 5 5 * 2 ^ 6
  match bits h 1 0, bits h 15 13 with
  | 0, 0 =>
    let imm : Nat := bits h 12 11 * 2 ^ 4 + bits h 10 7 * 2 ^ 6 + bits h 6 6 * 2 ^ 2 + bits h 5 5 * 2 ^ 3
    if imm = 0 then none else some (.opImm 0 false rb 2 (Int.ofNat imm))
  | 0, 2 => some (.load 2 rb ra (Int.ofNat wordOff))
  | 0, 6 => some (.store 2 ra rb (Int.ofNat wordOff))
  | 1, _ => rvDecodeC1 h
  | 2, 0 => if bits h 12 12 = 0 then some (.opImm 1 false rd rd rs2) else none
  | 2, 2 =>
    if rd = 0 then none
    else some (.load 2 rd 2 (Int.ofNat (bits h 12 12 * 2 ^ 5 + bits h 6 4 * 2 ^ 2 + bits h 3 2 * 2 ^ 6)))
  | 2, 4 =>
    if bits h 12 12 = 0 then
      (if rs2 ≠ 0 then some (.op 0 false rd 0 rs2) else if rd = 0 then none else some (.jalr 0 rd 0))
    else if rs2 ≠ 0 then some (.op 0 false rd rd rs2)
    else if rd = 0 then some .ebreak
    else some (.jalr 1 rd 0)
  | 2, 6 => some (.store 2 2 rs2 (Int.ofNat (bits h 12 9 * 2 ^ 2 + bits h 8 7 * 2 ^ 6)))
  | _, _ => none

/-! ## Arithmetic -/

/-- A register. -/
def Hart.reg (x : Hart) (k : Nat) : Word := x.x[k]?.getD 0

/-- The register-register and register-immediate operations, by function. -/
def rvAlu (f : Nat) (alt : Bool) (a b : Word) : Word :=
  match f with
  | 0 => if alt then a - b else a + b
  | 1 => a <<< (b.toNat % 32)
  | 2 => if a.toInt < b.toInt then 1 else 0
  | 3 => if a.toNat < b.toNat then 1 else 0
  | 4 => a ^^^ b
  | 5 => if alt then a.sshiftRight (b.toNat % 32) else a >>> (b.toNat % 32)
  | 6 => a ||| b
  | _ => a &&& b

/-- The M extension, by function. -/
def rvMulDiv (f : Nat) (a b : Word) : Word :=
  match f with
  | 0 => BitVec.ofNat 32 (a.toNat * b.toNat)
  | 1 => BitVec.ofInt 32 (a.toInt * b.toInt / 2 ^ 32)
  | 2 => BitVec.ofInt 32 (a.toInt * b.toNat / 2 ^ 32)
  | 3 => BitVec.ofNat 32 (a.toNat * b.toNat / 2 ^ 32)
  | 4 => if b = 0 then 0xFFFFFFFF else BitVec.ofInt 32 (a.toInt.tdiv b.toInt)
  | 5 => if b = 0 then 0xFFFFFFFF else BitVec.ofNat 32 (a.toNat / b.toNat)
  | 6 => if b = 0 then a else BitVec.ofInt 32 (a.toInt.tmod b.toInt)
  | _ => if b = 0 then a else BitVec.ofNat 32 (a.toNat % b.toNat)

/-- Whether a branch is taken, by function. -/
def rvTaken (f : Nat) (a b : Word) : Bool :=
  match f with
  | 0 => a == b
  | 1 => a != b
  | 4 => decide (a.toInt < b.toInt)
  | 5 => decide (b.toInt ≤ a.toInt)
  | 6 => decide (a.toNat < b.toNat)
  | _ => decide (b.toNat ≤ a.toNat)

/-! ## Control and status registers -/

/-- What a CSR reads and the state after the read (R376, R378); none where there is no such CSR. MEIP is 1 while the
hart's event queue is not empty. -/
def State.hartCsrRead (s : State) (h n : Nat) : Option (State × Word) :=
  let x := s.hart h
  let put := fun (y : Hart) (v : Word) => some (s.setHart h y, v)
  match n with
  | 0x300 => some (s, x.mstatus)
  | 0x301 => some (s, 0x40001104)
  | 0x304 => some (s, x.mie)
  | 0x305 => some (s, x.mtvec)
  | 0x340 => some (s, x.mscratch)
  | 0x341 => some (s, x.mepc)
  | 0x342 => some (s, x.mcause)
  | 0x343 => some (s, x.mtval)
  | 0x344 => some (s, if x.events.isEmpty then 0 else 0x800)
  | 0xB00 => some (s, BitVec.ofNat 32 (half x.mcycle 0))
  | 0xB80 => some (s, BitVec.ofNat 32 (half x.mcycle 1))
  | 0xB02 => some (s, BitVec.ofNat 32 (half x.minstret 0))
  | 0xB82 => some (s, BitVec.ofNat 32 (half x.minstret 1))
  | 0xF11 => some (s, 0)
  | 0xF12 => some (s, 0)
  | 0xF13 => some (s, 0)
  | 0xF14 => some (s, BitVec.ofNat 32 h)
  | 0x7C0 => some (s.popEvent h)
  | 0x7C1 => some (s, x.devt1)
  | 0x7C2 => some (s, x.devt2)
  | 0x7C3 => some (s, x.devt3)
  | 0x7C4 => put { x with dtimeh := BitVec.ofNat 32 (half s.time 1) } (BitVec.ofNat 32 (half s.time 0))
  | 0x7C5 => some (s, x.dtimeh)
  | 0x7C6 => put { x with dphaseh := BitVec.ofNat 32 (half s.iris.phase 1) } (BitVec.ofNat 32 (half s.iris.phase 0))
  | 0x7C7 => some (s, x.dphaseh)
  | 0x7C8 => some (s, x.dwin)
  | _ => none

/-- A write to a CSR (R376, R378): mstatus holds MIE and MPIE, mie MEIE, mtvec an address in direct mode, mepc an even
address, DWIN 17 bits; the others discard what is written. -/
def Hart.csrWrite (x : Hart) (n : Nat) (v : Word) : Hart :=
  match n with
  | 0x300 => { x with mstatus := v &&& 0x88 }
  | 0x304 => { x with mie := v &&& 0x800 }
  | 0x305 => { x with mtvec := v &&& 0xFFFFFFFC }
  | 0x340 => { x with mscratch := v }
  | 0x341 => { x with mepc := v &&& 0xFFFFFFFE }
  | 0x342 => { x with mcause := v }
  | 0x343 => { x with mtval := v }
  | 0xB00 => { x with mcycle := putHalf x.mcycle 0 v }
  | 0xB80 => { x with mcycle := putHalf x.mcycle 1 v }
  | 0xB02 => { x with minstret := putHalf x.minstret 0 v }
  | 0xB82 => { x with minstret := putHalf x.minstret 1 v }
  | 0x7C8 => { x with dwin := v &&& 0x1FFFF }
  | _ => x

/-! ## Execution -/

/-- An instruction of n bytes has completed: the PC moves on by them. -/
def Hart.next (x : Hart) (n : Nat) : Hart := { x with pc := x.pc + BitVec.ofNat 32 n, minstret := x.minstret + 1 }

/-- An instruction has completed and goes on at an address. -/
def Hart.jump (x : Hart) (a : Word) : Hart := { x with pc := a, minstret := x.minstret + 1 }

/-- Hart h takes an exception. -/
def State.hartTrap (s : State) (h cause : Nat) (tval : Word) : State := s.setHart h ((s.hart h).raise cause tval)

/-- An illegal instruction: what mtval then holds is not stated, a free value (log 14). -/
def State.hartIllegal (s : State) (h : Nat) : State :=
  s.takeFree.hartTrap h 2 (BitVec.ofNat 32 (Config.freeNat s.nfree))

/-- CSRRW, CSRRS, CSRRC and their immediate forms, n bytes long. CSRRW with rd = x0 does not read; CSRRS and CSRRC with a
zero source field do not write; a write to a read-only number is illegal. -/
def State.hartCsr (s : State) (h f rd rs1 n len : Nat) : State :=
  let v := if 4 ≤ f then BitVec.ofNat 32 rs1 else (s.hart h).reg rs1
  let swap := f % 4 == 1
  let writes := swap || rs1 != 0
  if writes && decide (0xC00 ≤ n) then s.hartIllegal h
  else
    match s.hartCsrRead h n with
    | none => s.hartIllegal h
    | some (s', old) =>
      let s' := if swap && rd == 0 then s else s'
      let new := if swap then v else if f % 4 = 2 then old ||| v else old &&& ~~~v
      let x := ((s'.hart h).setX rd old).next len
      s'.setHart h (if writes then x.csrWrite n new else x)

/-- A load (R376, R377): misaligned, cause 4; outside the map, cause 5. -/
def State.hartLd (s : State) (h f rd len : Nat) (addr : Word) : State :=
  let n := 2 ^ (f % 4)
  if addr.toNat % n ≠ 0 then s.hartTrap h 4 addr
  else
    match s.hartLoad h addr.toNat n with
    | (s', some bs) => s'.setHart h (((s'.hart h).setX rd (loadValue bs (f < 4))).next len)
    | (_, none) => s.hartTrap h 5 addr

/-- A store (R376, R377): misaligned, cause 6; outside the map, cause 7. -/
def State.hartSt (s : State) (h f len : Nat) (addr v : Word) : State :=
  let n := 2 ^ f
  if addr.toNat % n ≠ 0 then s.hartTrap h 6 addr
  else
    match s.hartStore h addr.toNat (bytesOfNat n v.toNat) with
    | some s' => s'.setHart h ((s'.hart h).next len)
    | none => s.hartTrap h 7 addr

/-- What an instruction of n bytes does. FENCE has nothing to order in this model (log 6); WFI
completes, and the hart waits until MEIP is 1 (R376). -/
def State.hartExec (s : State) (h len : Nat) (i : Rv) : State :=
  let x := s.hart h
  let put := fun (rd : Nat) (v : Word) => s.setHart h ((x.setX rd v).next len)
  let link := x.pc + BitVec.ofNat 32 len
  match i with
  | .lui rd imm => put rd (BitVec.ofNat 32 imm)
  | .auipc rd imm => put rd (x.pc + BitVec.ofNat 32 imm)
  | .jal rd off => s.setHart h ((x.setX rd link).jump (x.pc + BitVec.ofInt 32 off))
  | .jalr rd rs1 off => s.setHart h ((x.setX rd link).jump ((x.reg rs1 + BitVec.ofInt 32 off) &&& 0xFFFFFFFE))
  | .branch f a b off =>
    s.setHart h (if rvTaken f (x.reg a) (x.reg b) then x.jump (x.pc + BitVec.ofInt 32 off) else x.next len)
  | .load f rd rs1 off => s.hartLd h f rd len (x.reg rs1 + BitVec.ofInt 32 off)
  | .store f rs1 rs2 off => s.hartSt h f len (x.reg rs1 + BitVec.ofInt 32 off) (x.reg rs2)
  | .opImm f alt rd rs1 imm => put rd (rvAlu f alt (x.reg rs1) (BitVec.ofInt 32 imm))
  | .op f alt rd a b => put rd (rvAlu f alt (x.reg a) (x.reg b))
  | .mulDiv f rd a b => put rd (rvMulDiv f (x.reg a) (x.reg b))
  | .fence => s.setHart h (x.next len)
  | .csr f rd rs1 n => s.hartCsr h f rd rs1 n len
  | .ecall => s.hartTrap h 11 0
  | .ebreak => s.takeFree.hartTrap h 3 (BitVec.ofNat 32 (Config.freeNat s.nfree))
  | .mret =>
    let back := BitVec.ofNat 32 (0x80 + 8 * bit (wbit x.mstatus 7))
    s.setHart h ({ x with mstatus := back } |>.jump x.mepc)
  | .wfi => s.setHart h { x.next len with waiting := x.events.isEmpty }

/-- The half-word or word at a hart's PC and its length; where no fetch is possible, the address that gives none. -/
def State.hartFetch (s : State) (h : Nat) : State × (Nat × Nat ⊕ Word) :=
  let a := (s.hart h).pc
  match s.hartLoad h a.toNat 2 with
  | (_, none) => (s, .inr a)
  | (s', some lo) =>
    if natOfBytes lo % 4 ≠ 3 then (s', .inl (natOfBytes lo, 2))
    else
      match s'.hartLoad h (a + 2).toNat 2 with
      | (_, none) => (s', .inr (a + 2))
      | (s'', some hi) => (s'', .inl (natOfBytes lo + 2 ^ 16 * natOfBytes hi, 4))

/-- Hart h's machine external interrupt is taken: MEIP, MEIE and MIE are 1. -/
def Hart.interrupted (x : Hart) : Bool := !x.events.isEmpty && wbit x.mie 11 && wbit x.mstatus 3

/-- Hart h acts once while it runs (R376, R379): it waits, or takes its interrupt, or runs the instruction at its PC.
mcycle advances by at least 1; how far is a free value (log 14). -/
def State.hartTurn (s : State) (h : Nat) : State :=
  let x := s.hart h
  let wait := x.waiting && x.events.isEmpty
  let s := State.setHart s.takeFree h
    { x with waiting := wait, mcycle := x.mcycle + BitVec.ofNat 64 (1 + Config.freeNat s.nfree) }
  if wait then s
  else if x.interrupted then s.hartTrap h 0x8000000B 0
  else
    match s.hartFetch h with
    | (s', .inr a) => s'.hartTrap h 1 a
    | (s', .inl (w, n)) =>
      match if n = 2 then rvDecode16 w else rvDecode32 w with
      | some i => s'.hartExec h n i
      | none => s'.hartIllegal h

/-- The turn of hart h. -/
def hartTurn (h : Nat) (s : State) : Out := onHart s h (fun _ s => s.hartTurn h)

end Sys2Proof.Machine
end

