-- ==== Sys2Proof/Machine/Together.lean ====
section
/-! DEFINITION. What several agents do in one core cycle (01 R32, 07 R205, 11 R339, 15 R446): the order of their
happenings, the steps of the engines over the memory before the cycle, and how their writes meet. -/

namespace Sys2Proof.Machine

/-- The places in a core cycle (R32, R36, R163, R205, R339, R362, R403, R412, R427, R446, R474): ARM and CANCEL of a peer block,
a write to a codec's configuration, which an end of its session does not precede, the scalar unit, V, M, L, a tear-down, which
wins over an XLAUNCH, a block row, whose space is free before a row enters, E, and contributions by port, of which the mesh is
port 0; then what has no place of its own, and after it a pass of a scoreboard, the end of a codec's session, a coalescing
time-out, a launch, the decisions of the Iris, which take the participants as launches and retirements leave them, and the
writes that apply only after what meets them: a mirror entry, PLIM and PBURST. -/
inductive CyclePlace where
  | arm | cancel | config | scalar | v | m | l | tearDown | blockRow | e
  | port (p : Nat)
  | plain | pass | sessionEnd | coalesce | launch | decision | late
deriving DecidableEq, Repr

/-- The order of the places. -/
def CyclePlace.rank (x : CyclePlace) : Nat :=
  match x with
  | .arm => 0
  | .cancel => 1
  | .config => 2
  | .scalar => 3
  | .v => 4
  | .m => 5
  | .l => 6
  | .tearDown => 7
  | .blockRow => 8
  | .e => 9
  | .port p => 10 + min p 15
  | .plain => 26
  | .pass => 27
  | .sessionEnd => 28
  | .coalesce => 29
  | .launch => 30
  | .decision => 31
  | .late => 32

/-- The place of a write of the value v to the register at a physical address. -/
def registerPlace (a v : Nat) : CyclePlace :=
  if 0x470000004000 ≤ a ∧ a < 0x470000024000 ∧ (a - 0x470000004000) % 32 = 0 then
    if bits v 17 17 = 1 then .cancel else if bits v 16 16 = 1 then .arm else .plain
  else if a = 0x450000000020 then .tearDown
  else if 0x450000001000 ≤ a ∧ a < 0x450000001400 ∧ a % 0x40 = 0x14 then .pass
  else if 0x450000010000 ≤ a ∧ a < 0x450000010000 + 4 * 1536 then .late
  else if 0x440000000000 ≤ a ∧ a < 0x440000180000 then
    let off := a % 0x10000
    if off = 0 ∧ v % 2 = 0 then .sessionEnd else if 0 < off ∧ off < 0x30 ∧ off ≠ 0x24 then .config else .plain
  else if a = 0x480000001000 ∨ a = 0x480000001004 then .late
  else .plain

/-- The words of 32 bits that bytes written at a physical address meet, with what is written there. -/
def wordsMet (a : Nat) (bs : List Byte) : List (Nat × Nat) :=
  let padded := List.replicate (a % 4) (0 : Byte) ++ bs
  (List.range (ceilDiv padded.length 4)).map (fun k => (a / 4 * 4 + 4 * k, natOfBytes ((padded.drop (4 * k)).take 4)))

/-- The words that a step writes at physical addresses: the host's, a peer's or a hart's. -/
def registersWritten (s : State) (i : Instr) : List (Nat × Nat) :=
  match i with
  | .registerWrite a v => [(a, v.toNat)]
  | .pcieMemoryRequest r =>
    (match r.data with
     | none => []
     | some bs =>
       match (if 64 ≤ r.fn then (barAddr bar4Map r.off bs.length).map .phys else s.barTarget r.fn r.bar r.off bs.length) with
       | some (.phys a) => wordsMet a bs
       | _ => [])
  | .hartLoadStore h addr n _ _ (some v) =>
    (match (s.hart h).place addr.toNat with
     | some (.phys a) => wordsMet a (bytesOfNat n v.toNat)
     | _ => [])
  | _ => []

/-- The place of a step in the core cycle that begins in a state. -/
def cyclePlace (s : State) (i : Instr) : CyclePlace :=
  match i with
  | .peerBlockArm _ => .arm
  | .peerBlockCancel _ => .cancel
  | .fullEmptyWaitSatisfied _ => .scalar
  | .tokenWaitSatisfied _ => .scalar
  | .vStep _ => .v
  | .mStep _ _ => .m
  | .lStep _ => .l
  | .holdUntilEntryFree _ e => if e = .V then .v else .m
  | .ctxkill _ => .tearDown
  | .encodeBlockRow _ => .blockRow
  | .transferPieceLanding _ _ _ => .e
  | .meshLinkUncorrectableError _ _ _ => .e
  | .peerContrib q _ => .port q
  | .sbpass _ => .pass
  | .codecDisable _ => .sessionEnd
  | .msixCoalesceTimeout _ => .coalesce
  | .launchEnterCompute => .launch
  | .phaseAdvanceOdd => .decision
  | .phaseAdvanceEven _ => .decision
  | .quietSweepBegin => .decision
  | .computeTimeoutExpiry => .decision
  | .exchangeTimeoutExpiry => .decision
  | .watchdogExpiry => .decision
  | .mirrorWrite _ _ => .late
  | _ => ((registersWritten s i).map (fun w => registerPlace w.1 w.2)).find? (· != .plain) |>.getD .plain

/-- The place of a step in the order of its core cycle. -/
def cycleRank (s : State) (i : Instr) : Nat := (cyclePlace s i).rank

/-- Put a step behind those of its rank or less. -/
def insertStep (s : State) (i : Instr) : List Instr → List Instr
  | [] => [i]
  | x :: t => if cycleRank s i < cycleRank s x then i :: x :: t else x :: insertStep s i t

/-- The steps of a core cycle in their order; those of one rank stand in the order given. -/
def inCycle (s : State) (l : List Instr) : List Instr := l.foldl (fun t i => insertStep s i t) []

/-- A core cycle begins: nothing of the core's memory is read or written yet. -/
def Core.cycle (c : Core) : Cycle := { mem := c.mem, full := c.full, poison := c.poison, taken := [], written := [], filled := [] }

/-! ## The scalar unit -/

/-- The scalar access of an instruction: its address and bytes, whether it reads under W or C, and whether it sets
granules full (R29, R30); of a range change, the 64 granules of the core cycle (R166). -/
def scalarAccess (c : Core) (i : Instr) : Option (Nat × Nat × Bool) :=
  match i with
  | .ldW h w _ a o | .ldC h w _ a o => some (c.ea h a o (4 * 2 ^ w.toNat), 4 * 2 ^ w.toNat, false)
  | .stB h _ a o => some (c.ea h a o 1, 1, true)
  | .stH h _ a o => some (c.ea h a o 2, 2, true)
  | .st h w _ a o | .stE h w _ a o => some (c.ea h a o (4 * 2 ^ w.toNat), 4 * 2 ^ w.toNat, true)
  | .sth h _ a o => some (c.ea h a o 32, 32, true)
  | .feset h d a o =>
    let done := c.rangeDone i
    some (c.ea h a o 16 + 16 * done, 16 * min 64 ((c.reg d.toNat).toNat - done), true)
  | _ => none

/-- The cycle after the scalar instruction i, before which the core was c. -/
def Cycle.scalar (y : Cycle) (c : Core) (i : Instr) : Cycle :=
  match scalarAccess c i with
  | none => y
  | some (a, n, write) =>
    if n = 0 then y
    else if write then { y with written := setAddRange y.written (a / 16) ((a + n + 15) / 16) }
    else { y with taken := (granules a n).foldl setAdd y.taken }

/-! ## V, M and L -/

/-- The cycle after a step: its work counts where it took its effects. -/
def Cycle.stepped (y : Cycle) (w : Work) (o : StepOut) : Cycle :=
  match o with
  | .done _ => w.after y
  | _ => y

/-- A step of V in a core cycle. -/
def Core.vCycle (y : Cycle) (c : Core) : Option (Core × Cycle) :=
  (c.vStep (some y)).map (fun r => (r,
    match c.engV.queue with
    | [] => y
    | x :: _ =>
      let k := (vKind x.instr).getD .mov
      let s := c.engV.mpc.toNat
      if entrySteps x ≤ s then y else y.stepped (vWork k (Work.start (some y) c .V x) s) (vOut (some y) c x k s)))

/-- A step of M at position k of its queue in a core cycle. -/
def Core.mCycle (y : Cycle) (c : Core) (k : Nat) : Option (Core × Cycle) :=
  (if k = 0 then c.mStep (some y) else c.mAhead (some y) k).map (fun r => (r,
    match c.engM.queue[k]? with
    | none => y
    | some x =>
      let s := if k = 0 then c.engM.mpc.toNat else ((c.aheadAt k x).map (·.steps)).getD 0
      if entrySteps x ≤ s then y else y.stepped (mWork (some y) c x s).w (mOut (some y) c x s)))

/-- A step of L in a core cycle. -/
def Core.lCycle (y : Cycle) (c : Core) : Option (Core × Cycle) :=
  (c.lStep (some y)).map (fun r => (r,
    match c.engL.queue with
    | [] => y
    | x :: _ =>
      let s := c.engL.mpc.toNat
      if entrySteps x ≤ s then y
      else y.stepped ((Work.start (some y) c .L x).each (copyElems x s) copyElem) (lOut (some y) c x s)))

/-- The step of an engine of core p in a core cycle; none for other steps. -/
def engineCycle (i : Instr) (p : Nat) : Option (Cycle → Core → Option (Core × Cycle)) :=
  match i with
  | .vStep q => if q = p then some Core.vCycle else none
  | .mStep q k => if q = p then some (fun y c => c.mCycle y k) else none
  | .lStep q => if q = p then some Core.lCycle else none
  | .holdUntilEntryFree q e =>
    if q ≠ p then none
    else some (fun y c =>
      match (c.eng e).pushing with
      | none => none
      | some (n, _) =>
        if 8 ≤ (c.queue n).length then none
        else match e with
          | .V => c.vCycle y
          | .M => c.mCycle y 0
          | _ => none)
  | _ => none

/-! ## E -/

/-- The granules at which core b's memory differs from core a's: other bytes or poison, or full in b only. -/
def changedGranules (a b : Core) : List Nat :=
  let near := (a.mem ++ b.mem).map (fun (x : Host.Cell) => x.1 / 16) ++ (a.poison ++ b.poison).map (· / 2) ++ b.full
  (near.foldl setAdd []).filter (fun g =>
    readBytes a.mem (16 * g) 16 != readBytes b.mem (16 * g) 16 ||
    [2 * g, 2 * g + 1].any (fun k => setHas a.poison k != setHas b.poison k) || (setHas b.full g && !setHas a.full g))

/-- What a landing of the core cycle does to a core: `old` is the core that it read, `new` what it left of it. The
granules that it wrote are written last, and those that it cleared stay full where the cycle has written them (R32). A
landing writes whole granules (R283, R340). -/
def Cycle.land (y : Cycle) (now old new : Core) : Core × Cycle :=
  let put := changedGranules old new
  let clear := old.full.filter (fun g => !setHas new.full g)
  ({ new with
     readFull := none
     mem := put.foldl (fun m g => writeBytes m (16 * g) (readBytes new.mem (16 * g) 16)) now.mem
     full := put.foldl (fun f g => setPut f g (setHas new.full g))
       ((clear.filter (fun g => !setHas y.written g)).foldl setDel now.full)
     poison := put.foldl (fun f g => [2 * g, 2 * g + 1].foldl (fun f k => setPut f k (setHas new.poison k)) f) now.poison },
   { y with taken := clear.foldl setAdd y.taken, written := put.foldl setAdd y.written
            filled := (put.filter (setHas new.full)).foldl setAdd y.filled })

/-! ## The device -/

/-- The cycles of the cores that take part, by core. -/
abbrev Cycles := List (Nat × Cycle)

/-- The cycle of a core. -/
def Cycles.at (ys : Cycles) (p : Nat) : Option Cycle := (ys.find? (fun q => q.1 == p)).map (·.2)

/-- Replace the cycle of a core. -/
def Cycles.put (ys : Cycles) (p : Nat) (y : Cycle) : Cycles := ys.map (fun q => if q.1 = p then (p, y) else q)

/-- The cores that a step of a core cycle concerns as an engine or a scalar unit. -/
def stepCore (i : Instr) : Option Nat :=
  match i with
  | .vStep p | .mStep p _ | .lStep p | .holdUntilEntryFree p _ | .fullEmptyWaitSatisfied p | .tokenWaitSatisfied p
  | .transferPieceLanding p _ _ | .meshLinkUncorrectableError p _ _ => if p < coreCount then some p else none
  | _ => none

/-- A step that lands bytes, over the memory before the cycle, and the cores as it leaves them. -/
def landTogether (f : State → State) (ys : Cycles) (s : State) : State × Cycles :=
  let seen := ys.foldl (fun s q => s.onCoreAt q.1 q.2.landView) s
  let r := f seen
  ys.foldl (fun t q =>
    let m := q.2.land (s.coreAt q.1) (seen.coreAt q.1) (r.coreAt q.1)
    (t.1.setCore q.1 m.1, t.2.put q.1 m.2)) (r, ys)

end Sys2Proof.Machine
end

