-- ==== Sys2Proof/Machine/Schedule.lean ====
section
/-! DEFINITION. What each turn does (log 4), and the turn taken where State.turns names none. -/

namespace Sys2Proof.Machine

/-- The front end of the current core acts once: a boundary event, or the instruction at its PC. -/
def frontStep (s : State) : Out :=
  match atBoundary s with
  | some s' => .next s'
  | none =>
    let s := { s with core := s.core.startStep }
    match s.core.fetch with
    | .instr i => exec i s
    | .illegal r => execUnallocatedWord (BitVec.ofNat 3 r.sub) (BitVec.ofNat 32 r.etval) s
    | .fault k f => execInstructionFetchFault k f s
    | .wait => .next s

/-- The front end of core p acts once, where it may issue (R55, R358), or halts where a STEP.D waits (R447). -/
def frontTurn (p : Nat) (s : State) : Out :=
  if coreCount ≤ p then .fault (.noSuchUnit "core" p)
  else
    let s := s.select p
    if s.stilled then .next s
    else if s.core.issues then frontStep s
    else .next (s.haltInWait.getD s)

/-! ## The passing of cycles -/

/-- A count of core cycles that stops at its limit. -/
def countTo (lim t n : Nat) : Nat := if t < lim then min lim (t + n) else t

/-- n core cycles pass for a core: its READY or XREADY comes nearer to the Iris (R366), and the tail of its alarm
span shortens, down to the cycle in which it ends (R253). -/
def Core.pass (n : Nat) (c : Core) : Core :=
  { c with
    sigLeft := c.sigLeft - n
    matrix := if c.matrix.alarm || c.matrix.span == 0 then c.matrix else { c.matrix with span := max 1 (c.matrix.span - n) } }

/-- n core cycles are counted by CYCLE of a core that holds a task and is not HALTED (R45, log 5). -/
def Core.passCycle (n : Nat) (c : Core) : Core :=
  if c.task.isSome && !c.halted then { c with csr := { c.csr with cycle := c.csr.cycle + BitVec.ofNat 64 n } } else c

/-- n core cycles pass for the Iris: the phase bus (R366), the quiet sweep (R365), and the timers (R367, R370, R371,
R372). The compute and exchange timers count while CTEN or XTEN is 0 as well, up to their limits (DESIGN CHOICE, log 121). -/
def State.passIris (s : State) (n : Nat) : Iris :=
  let i := s.iris
  let i := { i with
    busLeft := i.busLeft - n
    sweep := i.sweep.map (fun k => if s.quiet then k - n else sweepCycles) }
  let k := if i.fresh then n - 1 else n
  let i := { i with fresh := i.fresh && n == 0 }
  if !s.timed then i
  else
    { i with
      ctimer := if s.inExchange then i.ctimer else countTo i.ctoLimit i.ctimer k
      xtimer := if s.inExchange then countTo i.xtoLimit i.xtimer k else i.xtimer
      wtimer := countTo i.wdogNow.toNat i.wtimer k }

/-- Change every core that differs from its state at reset. -/
def State.mapCores (s : State) (f : Core → Core) : State :=
  { s with core := f s.core, others := s.others.map (fun p => (p.1, f p.2)) }

/-- n core cycles pass, but for the cores' CYCLE: none while the core domain stands still. -/
def State.passCycles (s : State) (n : Nat) : State :=
  if s.stilled then s else State.mapCores { s with iris := s.passIris n } (Core.pass n)

/-- The nanoseconds that the next pulse of the 850 MHz clock takes: 17 pulses take 20 ns (log 5). -/
def State.pulseNs (s : State) : Nat := if [5, 12, 18].contains (s.time.toNat % 20) then 2 else 1

/-- The pulses up to the next core cycle pass (R373), with the TIME that they take: at most 16 of them. -/
def State.nextCycle : Nat → State → State
  | 0, s => s
  | f + 1, s =>
    let w := s.power.passPulse
    let s := { s with time := s.time + BitVec.ofNat 64 s.pulseNs, power := w.1 }
    if w.2 then s else s.nextCycle f

/-- The pulses of n core cycles pass, with the TIME that they take. -/
def State.passTime (s : State) : Nat → State
  | 0 => s
  | n + 1 => (s.nextCycle 16).passTime n

/-- n core cycles and their pulses pass, and ns nanoseconds (R45, R358, R367, R373). -/
def tick (cycles ns : Nat) (s : State) : State :=
  let s := { s with time := s.time + BitVec.ofNat 64 ns, power := (s.passTime cycles).power }
  if s.stilled then s else (s.passCycles cycles).mapCores (Core.passCycle cycles)

/-! ## Turns -/

/-- The step of an agent: an instruction word is no such step. -/
def eventTurn (i : Instr) (s : State) : Out :=
  match i.hdr with
  | none => exec i s
  | some _ => .next s

/-- A requester of core p loses core cycles at a bank (R339, R461); the counters saturate. -/
def loseCycles (p bank req n : Nat) (s : State) : State :=
  s.setCore p ((s.coreAt p).lose bank req n)

/-! ## One core cycle -/

/-- A core's front end has retired an instruction, or gone on with a range change (R166). -/
def Core.wentOn (before after : Core) : Bool :=
  after.csr.retired != before.csr.retired || (after.midRange && decide (after.held ≠ before.held))

/-- The front end of core p in a core cycle: the scalar instruction that it retires is noted (R32). -/
def frontTogether (t : State × Cycles) (p : Nat) : State × Cycles :=
  let before := t.1.coreAt p
  let s := (nextOf (frontTurn p t.1)).getD t.1
  match before.fetch, t.2.at p with
  | .instr i, some y =>
    if !before.wentOn (s.coreAt p) ∨ (i.hdr.map before.guard) ≠ some true then (s, t.2)
    else (s, t.2.put p (y.scalar before i))
  | _, _ => (s, t.2)

/-- The fault record of some core differs. -/
def State.recordsDiffer (s t : State) : Bool := t.cores.any (fun c => c.faultRec != (s.coreAt c.phys).faultRec)

/-- A step of a core cycle that began in the state `start`, with the failures of the cycle recorded as R287 says, of
whichever core they are: what the step alone would record is found from clear records. -/
def stepRecorded (start : State) (i : Instr) (s : State) : State :=
  let run := fun s => (nextOf (eventTurn i s)).getD s
  let t := run s
  if !s.recordsDiffer t then t
  else
    let new := run (s.mapCores (fun c => { c with faultRec := Vector.replicate 4 0 }))
    (t.cores.map (·.phys)).foldl (fun t p =>
      t.onCoreAt p (fun c => c.cycleRecords (start.coreAt p) (s.coreAt p) (new.coreAt p))) t

/-- A step of an agent in a core cycle (R32, R205) that began in the state `start`. -/
def stepTogether (start : State) (t : State × Cycles) (i : Instr) : State × Cycles :=
  match i with
  | .transferPieceLanding .. | .meshLinkUncorrectableError .. => landTogether (stepRecorded start i) t.2 t.1
  | _ =>
    match stepCore i with
    | none => (stepRecorded start i t.1, t.2)
    | some p =>
      match engineCycle i p, t.2.at p with
      | some f, some y =>
        if t.1.stilled then t
        else match f y (t.1.coreAt p) with
          | none => t
          | some r => (t.1.setCore p r.1, t.2.put p r.2)
      | _, some y =>
        let before := t.1.coreAt p
        let s := (nextOf (exec i t.1)).getD t.1
        (s, match before.held with
          | some x => if before.wentOn (s.coreAt p) then t.2.put p (y.scalar before x.instr) else t.2
          | none => t.2)
      | _, none => t

/-- Front ends and steps of agents that fall in one core cycle, in the order of R32, R205 and R446; the records that reach
the decision log in it follow in the order of R405. -/
def runTogether (fronts : List Nat) (steps : List Instr) (s : State) : State :=
  let fronts := fronts.filter (fun p => decide (p < coreCount))
  let ys : Cycles := (fronts ++ steps.filterMap stepCore).eraseDups.map (fun p => (p, (s.coreAt p).cycle))
  let order := inCycle s steps
  let before := fun (i : Instr) => decide (cycleRank s i < CyclePlace.scalar.rank)
  let t := (order.filter before).foldl (stepTogether s) (s.holdLog, ys)
  let t := fronts.foldl frontTogether t
  ((order.filter (!before ·)).foldl (stepTogether s) t).1.writeHeldLog

/-- One turn. -/
def runTurn (t : Turn) (s : State) : Out :=
  match t with
  | .event i => eventTurn i s
  | .front p => frontTurn p s
  | .hart h => hartTurn h s
  | .tick k ns => .next (tick k ns s)
  | .conflict p b r n => if coreCount ≤ p then .fault (.noSuchUnit "core" p) else .next (loseCycles p b r n s)
  | .together fs l => .next (runTogether fs l s)
  | .start q => startTurn q s

/-! ## The turn taken where none is named (log 4) -/

/-- What a step leaves, or the state as it stands. -/
def also (f : State → Out) (s : State) : State := (nextOf (f s)).getD s

/-- Several steps, one after the other. -/
def alsoAll (fs : List (State → Out)) (s : State) : State := fs.foldl (fun s f => also f s) s

/-- Every piece of core p's transfers that is due lands, and what is complete completes. -/
def landAll (p : Nat) (s : State) : State :=
  let xs := (s.coreAt p).xfers
  let s := (List.range xs.length).foldl (fun s t =>
    ((xs[t]?.map (·.pieces)).getD []).foldl (fun s k => also (execTransferPieceLanding p t k) s) s) s
  (List.range xs.length).foldl (fun s _ => also (execTransferComplete p) s) s

/-- Each agent of core p takes the step that is due, if any. -/
def coreRound (p : Nat) (s : State) : State :=
  let s := alsoAll [execVStep p, execMStep p 0, execLStep p, execHoldUntilEntryFree p .V, execHoldUntilEntryFree p .M,
    execXwaitSatisfied p, execXfenceDone p, execEInstructionBegin p, execXovlHeaderArrives p] s
  let s := alsoAll ((List.range' 1 ((s.coreAt p).engM.queue.length - 1)).map (execMStep p)) s
  let s := landAll p s
  alsoAll [execXovlImageComplete p, execHalfArraySpanEnd p, execStepStop p, execTraceRecordWrite p] s

/-- The steps of the memory ports that are due. -/
def portRound (s : State) : State :=
  let s := (List.range s.map.walks.length).foldl (fun s _ => also (execWalkEnd 0) s) s
  let n := s.map.fills.foldl (fun n d => n + d.left.length) 0
  let s := (List.range n).foldl (fun s k => also (execFillGranuleArrives (n - 1 - k)) s) s
  let n := s.map.backs.foldl (fun n d => n + d.left.length) 0
  let s := (List.range n).foldl (fun s k => also (execWriteBackDrain (n - 1 - k)) s) s
  alsoAll [execShootdownDone, execShootdownDrained] s

/-- The steps of the assists and of the codec engines that are due. -/
def assistRound (s : State) : State :=
  let s := alsoAll [execSlackneg, execResidencyFilled 0, execLaunchEnterCompute] s
  (List.range 24).foldl (fun s e => alsoAll [execEncodeBlockRow e, execChunkWrite e, execMsixCoalesceTimeout e,
    execDecodeChunk e, execDecoderRowOutput e] s) s

/-- The steps of the Iris that are due; the energy measured is a free value. -/
def irisRound (s : State) : State :=
  let s := s.iris.deliver.foldl (fun s p => also (execPhaseBusDelivery p) s) s
  alsoAll [execComputeTimeoutExpiry, execExchangeTimeoutExpiry, execWatchdogExpiry, execPhaseAdvanceOdd,
    fun s => execPhaseAdvanceEven (Config.freeNat s.nfree) s.takeFree, execQuietSweepBegin] s

/-- The front end of core p goes up to n times. -/
def frontTurns (p : Nat) : Nat → State → State
  | 0, s => s
  | n + 1, s => frontTurns p n (also (frontTurn p) s)

/-- The front end of core p, which has gone alone where it is the current one, and the core cycles of the round
where it lost them. -/
def frontRound (q p : Nat) (s : State) : State :=
  let t := frontTurns p (if p = q then 1 else 8) s
  if (t.coreAt p).csr.cycle = (s.coreAt p).csr.cycle then t.onCoreAt p (Core.passCycle 8) else t

/-- The engines of every core of a list take up to n steps. -/
def engineRounds (ps : List Nat) : Nat → State → State
  | 0, s => s
  | n + 1, s => engineRounds ps n (ps.foldl (fun s p => coreRound p s) s)

/-- A round of eight core cycles: every engine takes the steps that are due, the ports, the assists and the Iris
follow, and every front end goes. -/
def roundAll (s : State) : State :=
  let q := s.core.phys
  let ps := s.cores.map (·.phys)
  let s := irisRound (assistRound (portRound (engineRounds ps 8 (s.passTime 8))))
  let s := if s.stilled then s else ps.foldl (fun s p => frontRound q p s) s
  (s.passCycles 8).select q

/-- The current core's front end goes alone: it may issue and holds nothing; each eighth instruction leaves
room to the others. -/
def State.solo (s : State) : Bool :=
  s.core.issues && !s.stilled && s.core.held.isNone && !s.core.awaitsHeader && s.core.overlay.isNone &&
  s.core.csr.retired.toNat % 8 != 7

/-- The turn taken where none is named. -/
def defaultTurn (s : State) : Out := if s.solo then frontStep s else .next (roundAll s)

end Sys2Proof.Machine
end

