-- ==== Sys2Proof/Machine/Step.lean ====
section
/-! DEFINITION. The step function, and placing an instruction where it is fetched next. -/

namespace Sys2Proof.Machine

/-- One step of the device: the next turn. -/
def step (s : State) : Host.Outcome State Fault Refusal :=
  match s.turns with
  | [] => defaultTurn s
  | t :: ts => runTurn t { s with turns := ts }

/-- The device with an instruction of the opcode table where the current core's front end fetches next, all
that a launch would have brought about for it (log 1): the core executes in COMPUTE, its page is valid and
executable, and nothing is pending. -/
def State.withFetchWord (s : State) (nbits w : Nat) : State :=
  let v := w % 2 ^ nbits
  let c := s.core
  let a := c.pc.toNat
  let put := fun (m : Mem) (k : Nat) => writeLE m ((a + 4 * k) % 65536) 4 (v / 2 ^ (32 * k) % 2 ^ 32)
  { s with
    turns := if c.csr.retired.toNat % 8 = 7 then [.front c.phys] else []
    power := { s.power with coreClock := true }
    debugUnit := { s.debugUnit with armed := false }
    map := { s.map with walks := [] }
    core := { c with
      imem := put (put (put c.imem 0) 1) 2
      imemPoison := []
      pageValid := c.pageValid ||| BitVec.ofNat 16 (2 ^ (a / 4096)) ||| BitVec.ofNat 16 (2 ^ ((a + 8) % 65536 / 4096))
      pageExec := c.pageExec ||| BitVec.ofNat 16 (2 ^ (a / 4096)) ||| BitVec.ofNat 16 (2 ^ ((a + 8) % 65536 / 4096))
      pst := if c.pst = .exchange ∨ c.pst = .straggler then c.pst else .compute
      halted := false
      held := none
      overlay := none
      pend := .none
      engV := { c.engV with report := none }
      engM := { c.engM with report := none }
      engL := { c.engL with report := none }
      engE := { c.engE with report := none }
      dbg := { c.dbg with stepping := none } } }

end Sys2Proof.Machine
end

