-- ==== Sys2Proof/Safety.lean ====
section
/-! DEFINITION. What a safe run is: no step stops, and the memories keep their canonical form. -/

namespace Sys2Proof

/-- The machine goes on from a state. -/
def GoesOn (s : Machine.State) : Prop := ∃ t, Machine.step s = .next t

namespace Machine

/-- Every memory of a core is in its canonical form. -/
def Core.memoriesWf (c : Core) : Bool := memWf c.mem && memWf c.imem

/-- The memories of the cores, device memory, host memory and staging are in their canonical form. -/
def State.memoriesWf (s : State) : Bool :=
  s.core.memoriesWf && s.others.all (fun p => p.2.memoriesWf) &&
  memWf s.map.gddr && memWf s.map.host && memWf s.map.staging

end Machine

end Sys2Proof
end

