-- ==== Sys2Proof/Certificates/Slice0/Obligations.lean ====
section
/-! DEFINITION. The statements for the provers. Each is a proposition about the machine; the definitions before them say
over plain numbers, from the rules of spec/, what an instruction or a step of an agent gives. -/

/-! ## Scalar instructions -/

namespace Sys2Proof.Claims
open Sys2Proof.Machine

/-- An instruction at the front end takes its own effect: its guard is true (R69) and every token wait it
names is satisfied (R80, R177). -/
def ready (c : Core) (i : Instr) (h : Hdr) : Bool := c.guard h && waitsDone c i h

/-- The sum of f over the numbers below n. -/
def sumTo (n : Nat) (f : Nat → Nat) : Nat := ((List.range n).map f).sum

/-- How many numbers below n satisfy p. -/
def countTo (n : Nat) (p : Nat → Bool) : Nat := ((List.range n).filter p).length

/-- Bit i of a number, as a number. -/
def bitAt (x i : Nat) : Nat := x / 2 ^ i % 2

/-- An integer as a 32-bit pattern. -/
def pat32 (v : Int) : Nat := (v % 2 ^ 32).toNat

/-- What a register instruction writes: SetReg(dest, width, value) with the low bits of the value. -/
structure RegWrite where
  hdr : Hdr
  dest : Nat
  width : Nat
  value : Nat

/-- The immediate k of R74 and R75: IMM9 sign-extended, or the low 32 bits of the LIMM's 28 bits with IMM9 below. -/
def immediate (h : Hdr) (i : BitVec 9) : Nat :=
  match h.limm with
  | none => pat32 (sx i.toNat 9)
  | some v => (v.toNat * 2 ^ 9 + i.toNat) % 2 ^ 32

/-- The results of R145, R147 and R157, over numbers: x and y are Reg(RA, W) and Reg(RB, W), m two to the width in
bits, k the immediate. -/
def arithResult (i : Instr) (c : Core) : Option RegWrite :=
  let r := fun (a : BitVec 6) => (c.reg a.toNat).toNat
  let one := fun (h : Hdr) (d a : BitVec 6) (f : Nat → Nat) => some (RegWrite.mk h d.toNat 0 (f (r a)))
  let two := fun (h : Hdr) (d a b : BitVec 6) (f : Nat → Nat → Nat) => some (RegWrite.mk h d.toNat 0 (f (r a) (r b)))
  let grp := fun (h : Hdr) (w : Nat) (d a b : BitVec 6) (f : Nat → Nat → Nat → Nat) =>
    some (RegWrite.mk h d.toNat w (f (2 ^ (32 * 2 ^ w)) (c.group a.toNat w) (c.group b.toNat w)))
  match i with
  | .add h w d a b => grp h w.toNat d a b (fun m x y => (x + y) % m)
  | .sub h w d a b => grp h w.toNat d a b (fun m x y => (((x : Int) - y) % m).toNat)
  | .and h w d a b => grp h w.toNat d a b (fun _ x y => x &&& y)
  | .or h w d a b => grp h w.toNat d a b (fun _ x y => x ||| y)
  | .xor h w d a b => grp h w.toNat d a b (fun _ x y => x ^^^ y)
  | .andn h w d a b => grp h w.toNat d a b (fun m x y => x &&& (m - 1 - y))
  | .shl h d a b => two h d a b (fun x y => x * 2 ^ (y % 32) % 2 ^ 32)
  | .shr h d a b => two h d a b (fun x y => x / 2 ^ (y % 32))
  | .sra h d a b => two h d a b (fun x y => pat32 (sx x 32 / 2 ^ (y % 32)))
  | .rot h d a b => two h d a b (fun x y => x / 2 ^ (y % 32) ||| x * 2 ^ (32 - y % 32) % 2 ^ 32)
  | .min h d a b => two h d a b (fun x y => pat32 (min (sx x 32) (sx y 32)))
  | .max h d a b => two h d a b (fun x y => pat32 (max (sx x 32) (sx y 32)))
  | .minu h d a b => two h d a b (fun x y => min x y)
  | .maxu h d a b => two h d a b (fun x y => max x y)
  | .sel h n w d a b => some ⟨h, d.toNat, w.toNat, c.group (if c.pred n.toNat then a.toNat else b.toNat) w.toNat⟩
  | .addi h d a k => one h d a (fun x => (x + immediate h k) % 2 ^ 32)
  | .andi h d a k => one h d a (fun x => x &&& immediate h k)
  | .ori h d a k => one h d a (fun x => x ||| immediate h k)
  | .xori h d a k => one h d a (fun x => x ^^^ immediate h k)
  | .shli h d a s => one h d a (fun x => x * 2 ^ s.toNat % 2 ^ 32)
  | .shri h d a s => one h d a (fun x => x / 2 ^ s.toNat)
  | .srai h d a s => one h d a (fun x => pat32 (sx x 32 / 2 ^ s.toNat))
  | .movi h d k => some ⟨h, d.toNat, 0, immediate h k⟩
  | _ => none

/-- The results of R148 and R149: x and y are Reg(RA, 0) and Reg(RB, 0); a quotient is truncated toward zero. -/
def mulDivResult (i : Instr) (c : Core) : Option RegWrite :=
  let r := fun (a : BitVec 6) => (c.reg a.toNat).toNat
  let two := fun (h : Hdr) (d a b : BitVec 6) (f : Nat → Nat → Nat) => some (RegWrite.mk h d.toNat 0 (f (r a) (r b)))
  match i with
  | .mul h d a b => two h d a b (fun x y => x * y % 2 ^ 32)
  | .mulh h d a b => two h d a b (fun x y => pat32 (sx x 32 * sx y 32 / 2 ^ 32))
  | .mulhu h d a b => two h d a b (fun x y => x * y / 2 ^ 32)
  | .div h d a b => two h d a b (fun x y => if y = 0 then 0xFFFFFFFF else pat32 ((sx x 32).tdiv (sx y 32)))
  | .divu h d a b => two h d a b (fun x y => if y = 0 then 0xFFFFFFFF else x / y)
  | .rem h d a b => two h d a b (fun x y => if y = 0 then x else pat32 ((sx x 32).tmod (sx y 32)))
  | .remu h d a b => two h d a b (fun x y => if y = 0 then x else x % y)
  | _ => none

/-- The results of R150, R151 and R152. -/
def bitResult (i : Instr) (c : Core) : Option RegWrite :=
  let r := fun (a : BitVec 6) => (c.reg a.toNat).toNat
  let one := fun (h : Hdr) (d a : BitVec 6) (f : Nat → Nat) => some (RegWrite.mk h d.toNat 0 (f (r a)))
  let two := fun (h : Hdr) (d a b : BitVec 6) (f : Nat → Nat → Nat) => some (RegWrite.mk h d.toNat 0 (f (r a) (r b)))
  match i with
  | .clz h d a => one h d a (fun x => countTo 32 (fun k => decide (x < 2 ^ k)) )
  | .ctz h d a => one h d a (fun x => countTo 32 (fun k => decide (x % 2 ^ (k + 1) = 0)))
  | .popc h d a => one h d a (fun x => sumTo 32 (bitAt x))
  | .brev h d a => one h d a (fun x => sumTo 32 (fun i => bitAt x i * 2 ^ (31 - i)))
  | .bilv2 h d a b => two h d a b (fun x y => sumTo 16 (fun i => (bitAt x i + 2 * bitAt y i) * 4 ^ i))
  | .bilv3 h d a b =>
    two h d a b (fun x y => sumTo 10 (fun i => (bitAt x i + 2 * bitAt y i + 4 * bitAt y (16 + i)) * 8 ^ i))
  | .bdlv2 h d a b => two h d a b (fun x y => sumTo 16 (fun i => bitAt x (2 * i + y % 2) * 2 ^ i))
  | .bdlv3 h d a b =>
    two h d a b (fun x y => if y % 4 = 3 then 0 else sumTo 10 (fun i => bitAt x (3 * i + y % 4) * 2 ^ i))
  | .bfx h d a b => two h d a b (fun x y => (x / 2 ^ bits y 4 0) &&& (2 ^ (bits y 9 5 + 1) - 1))
  | .bfi h d a b => two h d a b (fun x y =>
      let m := (2 ^ (bits y 9 5 + 1) - 1) * 2 ^ bits y 4 0 % 2 ^ 32
      (r d &&& (0xFFFFFFFF - m)) ||| (x * 2 ^ bits y 4 0 &&& m))
  | _ => none

/-- The truth that a comparison or predicate cell writes, with its destination (R146, R156, R158, R159). -/
def truth (i : Instr) (c : Core) : Option (Hdr × Nat × Bool) :=
  let g := fun (a : BitVec 6) (w : BitVec 1) => c.group a.toNat w.toNat
  let n := fun (w : BitVec 1) => 32 * 2 ^ w.toNat
  let r := fun (a : BitVec 6) => (c.reg a.toNat).toNat
  let f := fun (a : BitVec 6) => Fmt.fp32.value (r a)
  let p := fun (a : BitVec 3) => c.pred a.toNat
  match i with
  | .cmpEq h w d a b => some (h, d.toNat, decide (g a w = g b w))
  | .cmpNe h w d a b => some (h, d.toNat, decide (g a w ≠ g b w))
  | .cmpLt h w d a b => some (h, d.toNat, decide (sx (g a w) (n w) < sx (g b w) (n w)))
  | .cmpLe h w d a b => some (h, d.toNat, decide (sx (g a w) (n w) ≤ sx (g b w) (n w)))
  | .cmpLtu h w d a b => some (h, d.toNat, decide (g a w < g b w))
  | .cmpLeu h w d a b => some (h, d.toNat, decide (g a w ≤ g b w))
  | .cmpiEq h d a k => some (h, d.toNat, decide (r a = immediate h k))
  | .cmpiNe h d a k => some (h, d.toNat, decide (r a ≠ immediate h k))
  | .cmpiLt h d a k => some (h, d.toNat, decide (sx (r a) 32 < sx (immediate h k) 32))
  | .cmpiLe h d a k => some (h, d.toNat, decide (sx (r a) 32 ≤ sx (immediate h k) 32))
  | .cmpiLtu h d a k => some (h, d.toNat, decide (r a < immediate h k))
  | .cmpiLeu h d a k => some (h, d.toNat, decide (r a ≤ immediate h k))
  | .fcmpEq h d a b => some (h, d.toNat, (f a).eqv (f b))
  | .fcmpLt h d a b => some (h, d.toNat, (f a).lt (f b))
  | .fcmpLe h d a b => some (h, d.toNat, (f a).lt (f b) || (f a).eqv (f b))
  | .fcmpUn h d a b => some (h, d.toNat, (f a).isNan || (f b).isNan)
  | .pand h d a b => some (h, d.toNat, p a && p b)
  | .por h d a b => some (h, d.toNat, p a || p b)
  | .pxor h d a b => some (h, d.toNat, xor (p a) (p b))
  | .pnot h d a => some (h, d.toNat, !p a)
  | .pmov h d a => some (h, d.toNat, p a)
  | _ => none

end Sys2Proof.Claims

/-! ## FP32 -/

namespace Sys2Proof.Claims
open Sys2Proof.Machine

/-- FPCTL.RM as a scalar FP32 cell takes it (R127, R129, R153): SR is treated as RNE. -/
def scalarRm (c : Core) : Mode :=
  match c.csr.fpctl.toNat % 8 with
  | 1 => .rtz | 2 => .rup | 3 => .rdn | _ => .rne

/-- Where an FP32 code that is no NaN stands in the order of R154: -0 just below +0. -/
def fpOrder (x : Nat) : Int := if x < 2 ^ 31 then x else -((x : Int) - 2 ^ 31) - 1

/-- What FMIN and FMAX write (R154). -/
def fpPick (least : Bool) (x y : Nat) : Nat :=
  let nan := fun z => (Fmt.fp32.value z).isNan
  if nan x && nan y then 0x7FC00000
  else if nan x then y
  else if nan y then x
  else if least then (if fpOrder x < fpOrder y then x else y)
  else (if fpOrder x < fpOrder y then y else x)

/-- The header, destination, code and condition bits of an FP32 cell (R153 to R155). -/
def fpResult (i : Instr) (c : Core) : Option (Hdr × Nat × Nat × Nat) :=
  let r := fun (a : BitVec 6) => (c.reg a.toNat).toNat
  let f := fun (a : BitVec 6) => Fmt.fp32.value (r a)
  let down := scalarRm c == .rdn
  let rounded := fun (h : Hdr) (d : BitVec 6) (g : Fmt) (v : Val) (invalid : Bool) =>
    let q := round g (scalarRm c) false v
    some (h, d.toNat, q.code, q.flags ||| (if invalid then 1 else 0))
  match i with
  | .fadd h d a b => let v := (f a).add down (f b); rounded h d .fp32 v.1 v.2
  | .fmul h d a b => let v := (f a).mul (f b); rounded h d .fp32 v.1 v.2
  | .fma h d a b => let p := (f a).mul (f b); let v := p.1.add down (f d); rounded h d .fp32 v.1 (p.2 || v.2)
  | .fmin h d a b => some (h, d.toNat, fpPick true (r a) (r b), 0)
  | .fmax h d a b => some (h, d.toNat, fpPick false (r a) (r b), 0)
  | .fcvtFI h d a => rounded h d .fp32 (.ofInt (sx (r a) 32)) false
  | .fcvtFU h d a => rounded h d .fp32 (.ofInt (r a)) false
  | .fcvtIF h d a => rounded h d .int32 (f a) false
  | .fcvtUF h d a => rounded h d .uint32 (f a) false
  | _ => none

/-- The core with a result written and the sticky bits FPCTL[20:16] set for the conditions. -/
def fpCore (c : Core) (d code flags : Nat) : Core :=
  let c' := c.setReg d (BitVec.ofNat 32 code)
  { c' with csr := { c'.csr with fpctl := c.csr.fpctl ||| BitVec.ofNat 32 (flags * 2 ^ 16) } }

end Sys2Proof.Claims

/-! ## Scalar memory -/

namespace Sys2Proof.Claims
open Sys2Proof.Machine

/-- EA (R74, R75): the register plus the sign-extended offset times the access size, mod 2^20. -/
def address (c : Core) (h : Hdr) (a : BitVec 6) (o : BitVec 7) (z : Nat) : Nat :=
  let off : Int := match h.limm with
    | none => sx o.toNat 7
    | some v => sx (v.toNat * 128 + o.toNat) 35
  ((((c.reg a.toNat).toNat : Int) + off * z) % 2 ^ 20).toNat

/-- n bytes from a on, the first least significant (R4). -/
def bytesAt (m : Mem) (a n : Nat) : Nat := sumTo n (fun k => (memRead m (a + k)).toNat * 256 ^ k)

/-- No byte of n from a on lies in a poisoned 8-byte word (R160 step 5). -/
def clean (c : Core) (a n : Nat) : Bool := (List.range n).all (fun k => !setHas c.poison ((a + k) / 8))

/-- Every scratchpad granule that n bytes from a on touch is full (R29), as the reads of a core cycle meet it (R32, log 103);
other memory counts as full (R28). -/
def allFull (c : Core) (a n : Nat) : Bool :=
  (List.range n).all (fun k => decide (0x80000 ≤ a + k) || setHas c.seenFull ((a + k) / 16))

/-- Every granule that n bytes from a on touch is empty (R30); other memory counts as full (R28). -/
def allEmpty (c : Core) (a n : Nat) : Bool :=
  (List.range n).all (fun k => decide (a + k < 0x80000) && !setHas c.full ((a + k) / 16))

/-- A load of class 0x3 (R161, R165): its qualifier (0 N, 1 W, 2 C), its address and size, and what it writes. -/
structure LoadForm where
  hdr : Hdr
  qual : Nat
  addr : Nat
  size : Nat
  put : Core → Nat → Core

/-- The loads of R161 and R165. -/
def loadForm (i : Instr) (c : Core) : Option LoadForm :=
  let z := fun (w : BitVec 2) => 4 * 2 ^ w.toNat
  let grp := fun (d : BitVec 6) (w : Nat) => fun (k : Core) (v : Nat) => k.setGroup d.toNat w v
  match i with
  | .ldB h d a o => some ⟨h, 0, address c h a o 1, 1, grp d 0⟩
  | .ldH h d a o => some ⟨h, 0, address c h a o 2, 2, grp d 0⟩
  | .ld h w d a o => some ⟨h, 0, address c h a o (z w), z w, grp d w.toNat⟩
  | .ldW h w d a o => some ⟨h, 1, address c h a o (z w), z w, grp d w.toNat⟩
  | .ldC h w d a o => some ⟨h, 2, address c h a o (z w), z w, grp d w.toNat⟩
  | .ldh h x a o => some ⟨h, 0, address c h a o 32, 32, fun k v => k.setHandle x.toNat (BitVec.ofNat 256 v)⟩
  | _ => none

/-- A user-mode read of the parameter window: only the bytes below PWIN are read (R34). -/
def boundedRead (c : Core) (a z : Nat) : Nat :=
  if 0xA0000 ≤ a ∧ !c.csr.priv then min z (c.csr.pwin.toNat - (a - 0xA0000)) else z

/-- A load meets no check of R160: aligned, mapped, not barred from the window, its granules full where its
qualifier waits, and no poison in what it reads. -/
def loadAllowed (c : Core) (f : LoadForm) : Bool :=
  f.addr % f.size == 0 && decide (f.addr < 0xA1000) &&
  (decide (f.addr < 0xA0000) || c.csr.priv || c.csr.pwin != 0) &&
  (f.qual == 0 || allFull c f.addr f.size) &&
  clean c f.addr (boundedRead c f.addr f.size)

/-- The core after a load: the register written, PWOOB set where the bound cut the read, and the granules of a C
load empty (R161, R34). -/
def loaded (c : Core) (f : LoadForm) : Core :=
  let n := boundedRead c f.addr f.size
  let c1 := f.put c (bytesAt c.mem f.addr n)
  let c2 : Core := { c1 with csr := { c1.csr with pwoob := c1.csr.pwoob || decide (n < f.size) } }
  if f.qual = 2 then c2.markFull f.addr f.size false else c2

/-- LDP (R164): its offset, size and destination. -/
def paramForm (i : Instr) (c : Core) : Option LoadForm :=
  match i with
  | .ldp h w d a o => some ⟨h, 0, address c h a o (4 * 2 ^ w.toNat), 4 * 2 ^ w.toNat, fun k v => k.setGroup d.toNat w.toNat v⟩
  | _ => none

/-- How many bytes of LDP lie below its bound (R164): PWIN in user mode, 4,096 in supervisor mode. -/
def paramBytes (c : Core) (f : LoadForm) : Nat :=
  min f.size ((if c.csr.priv then 4096 else min 4096 c.csr.pwin.toNat) - f.addr)

/-- LDP meets no check; an access that straddles the end of the window is no matter of alignment (R164, log 97). -/
def paramAllowed (c : Core) (f : LoadForm) : Bool :=
  (f.addr % f.size == 0 || decide (f.addr < 4096 ∧ 4096 < f.addr + f.size)) && (c.csr.priv || c.csr.pwin != 0) && clean c (0xA0000 + f.addr) (paramBytes c f)

/-- The core after LDP. -/
def paramLoaded (c : Core) (f : LoadForm) : Core :=
  let n := paramBytes c f
  let c1 := f.put c (bytesAt c.mem (0xA0000 + f.addr) n)
  { c1 with csr := { c1.csr with pwoob := c1.csr.pwoob || decide (n < f.size) } }

/-- A store of class 0x3 (R162, R165): whether it requires empty granules, its address, size and value. -/
structure StoreForm where
  hdr : Hdr
  empty : Bool
  addr : Nat
  size : Nat
  value : Nat

/-- The stores of R162 and R165. -/
def storeForm (i : Instr) (c : Core) : Option StoreForm :=
  let z := fun (w : BitVec 2) => 4 * 2 ^ w.toNat
  match i with
  | .stB h d a o => some ⟨h, false, address c h a o 1, 1, (c.reg d.toNat).toNat⟩
  | .stH h d a o => some ⟨h, false, address c h a o 2, 2, (c.reg d.toNat).toNat⟩
  | .st h w d a o => some ⟨h, false, address c h a o (z w), z w, c.group d.toNat w.toNat⟩
  | .stE h w d a o => some ⟨h, true, address c h a o (z w), z w, c.group d.toNat w.toNat⟩
  | .sth h x a o => some ⟨h, false, address c h a o 32, 32, (c.handle x.toNat).toNat⟩
  | _ => none

/-- A store meets no check of R160: aligned, mapped, not a user store to the window, its granules empty where it
requires that, and no poison that a store of fewer than 8 bytes would merge with. -/
def storeAllowed (c : Core) (f : StoreForm) : Bool :=
  f.addr % f.size == 0 && decide (f.addr < 0xA1000) && (decide (f.addr < 0xA0000) || c.csr.priv) &&
  (!f.empty || allEmpty c f.addr f.size) && (decide (8 ≤ f.size) || clean c f.addr f.size)

/-- The granules of a range of n that a front end holding i has changed in earlier core cycles (R166). -/
def changedBefore (c : Core) (i : Instr) : Nat :=
  match c.held with
  | some x => if x.instr = i then x.done else 0
  | none => 0

/-- The core in which the granules lo up to hi are full, or empty. -/
def granulesAre (c : Core) (lo hi : Nat) (full : Bool) : Core :=
  { c with full := if full then setAddRange c.full lo hi else setDelRange c.full lo hi }

/-- FEQ, FESET and FECLR (R166): the header and the core they leave with their last core cycle, where no check fails; a
core cycle changes up to 64 granules of a range. -/
def granuleCell (i : Instr) (c : Core) : Option (Hdr × Core × Nat) :=
  let range := fun (h : Hdr) (d a : BitVec 6) (o : BitVec 7) (full : Bool) =>
    let e := address c h a o 16
    let n := (c.reg d.toNat).toNat
    let k := changedBefore c i
    if e % 16 = 0 ∧ (n = 0 ∨ e / 16 + n ≤ 0x8000) ∧ k ≤ n ∧ n ≤ k + 64 then
      some (h, granulesAre c (e / 16 + k) (e / 16 + n) full, 1)
    else none
  match i with
  | .feq h p a o =>
    let e := address c h a o 16
    if e % 16 = 0 ∧ e < 0xA1000 then some (h, c.setPred p.toNat (decide (0x80000 ≤ e) || setHas c.seenFull (e / 16)), 1)
    else none
  | .feset h d a o => range h d a o true
  | .feclr h d a o => range h d a o false
  | _ => none

/-- A core cycle of FESET or FECLR of which more than 64 granules are left (R166): the next 64 in ascending order, with the
instruction still at the front end, which has changed so many more. -/
def rangeCycle (i : Instr) (c : Core) : Option (Hdr × Core) :=
  let range := fun (h : Hdr) (d a : BitVec 6) (o : BitVec 7) (full : Bool) =>
    let e := address c h a o 16
    let n := (c.reg d.toNat).toNat
    let k := changedBefore c i
    if e % 16 = 0 ∧ e / 16 + n ≤ 0x8000 ∧ k + 64 < n then
      some (h, { granulesAre c (e / 16 + k) (e / 16 + k + 64) full with
        held := some { instr := i, why := .range, waits := scalarWaits c i h, done := k + 64 }
        csr := { c.csr with cycle := c.csr.cycle + 1 } })
    else none
  match i with
  | .feset h d a o => range h d a o true
  | .feclr h d a o => range h d a o false
  | _ => none

/-! ## Control flow -/

/-- The address of the main word: behind the prefix words (R62, R74). -/
def mainAt (c : Core) (h : Hdr) : Nat := (c.pc.toNat + 4 * (bit h.tok.isSome + bit h.limm.isSome)) % 2 ^ 16

/-- The loop levels that remain after a transfer to t (R174): the innermost is popped while its body does not hold
t. -/
def levelsLeft (c : Core) (t : Nat) : Nat → Nat
  | 0 => 0
  | n + 1 =>
    let b := (loopReg c.csr.lpbeg n).toNat
    let e := (loopReg c.csr.lpfin n).toNat
    if ((e : Int) - b) % 2 ^ 16 < ((t : Int) - b) % 2 ^ 16 then levelsLeft c t n else n + 1

/-- A control transfer: where it goes, the word it links, whether it pops loop levels, its issue cost. -/
structure Transfer where
  hdr : Hdr
  target : Nat
  link : Option Nat
  pops : Bool

/-- BR, BRL, JR and JRL (R170, R171), where the target is aligned. -/
def transfer (i : Instr) (c : Core) : Option Transfer :=
  let rel := fun (h : Hdr) (o : BitVec 23) => (((mainAt c h : Int) + sx o.toNat 23 * 4) % 2 ^ 16).toNat
  let reg := fun (a : BitVec 6) (o : BitVec 15) => ((((c.reg a.toNat).toNat : Int) + sx o.toNat 15 * 4) % 2 ^ 16).toNat
  let aligned := fun (t : Transfer) => if t.target % 4 = 0 then some t else none
  match i with
  | .br h o => some ⟨h, rel h o, none, true⟩
  | .brl h o => some ⟨h, rel h o, some ((mainAt c h + 4) % 2 ^ 16), false⟩
  | .jr h a o => aligned ⟨h, reg a o, none, true⟩
  | .jrl h a o => aligned ⟨h, reg a o, some ((mainAt c h + 4) % 2 ^ 16), false⟩
  | _ => none

/-- A taken transfer writes the target to the PC and retires: 3 core cycles (R144), no loop-end action (R173). -/
def wentTo (c0 c : Core) (t cost : Nat) : Core :=
  { c with pc := BitVec.ofNat 16 t }.count cost c0.userCode

end Sys2Proof.Claims

/-! ## System cells -/

namespace Sys2Proof.Claims
open Sys2Proof.Machine

/-- The word that V, M and L have completed all that was issued (R179). -/
def engineIdle (g : Engine) : Bool := g.done == g.iss

/-- The engine whose counter a CSR is (R190): V, M, L and E's, or E for the channel registers. -/
def counterEngine (i : Nat) : Option Eng :=
  if (0x020 ≤ i ∧ i ≤ 0x027) ∨ (0x030 ≤ i ∧ i ≤ 0x033) then
    (match i % 4 with
     | 0 => some .V | 1 => some .M | 2 => some .L | _ => some .E)
  else if 0x040 ≤ i ∧ i ≤ 0x047 then some .E
  else none

/-- A counter CSR may be written now (R190): its engine is frozen or has nothing queued or running. -/
def counterFree (c : Core) (i : Nat) : Bool :=
  match counterEngine i with
  | some e => (c.eng e).frozen || (c.eng e).queue.isEmpty
  | none => true

/-- The CSRs that R45 lets user mode write; those of debug and trace where the context permits debug (R46). -/
def userWrites (debug : Bool) (i : Nat) : Bool :=
  i == 0x000 || [0x051, 0x052, 0x053, 0x054, 0x055, 0x080].contains i || (debug && [0x0C0, 0x0C2, 0x0C3].contains i)

/-- The CSRs that some mode may write (R45). -/
def someModeWrites (i : Nat) : Bool :=
  userWrites true i || [0x001, 0x002, 0x003, 0x004, 0x005].contains i ||
  decide ((0x020 ≤ i ∧ i ≤ 0x027) ∨ (0x030 ≤ i ∧ i ≤ 0x033) ∨ (0x040 ≤ i ∧ i ≤ 0x050)) ||
  i == 0x060 || i == 0x061 || decide (0x100 ≤ i ∧ i ≤ 0x10C)

/-- Those that R45 lets supervisor mode write; EVEC where SUPOK is 1 (R44). -/
def supervisorWrites (c : Core) (i : Nat) : Bool := someModeWrites i && (i != 0x004 || c.csr.supok)

/-- The word that a cell stores in plain bits (R188): 0 CSRW, 1 CSRS, 2 CSRC. -/
def csrNew (cell : Nat) (old v : Word) : Word :=
  match cell with
  | 0 => v
  | 1 => old ||| v
  | _ => old &&& ~~~v

/-- A write of CSR i changes the owner of no bank that V or M targets (R27). -/
def banksFree (c : Core) (cell i : Nat) (v : Word) : Bool :=
  i != 0x050 || (List.range 8).all (fun n =>
    bitAt (csrNew cell (c.csr.accown.zeroExtend 32) v).toNat n == bitAt c.csr.accown.toNat n ||
    !(c.targetsBank .V n || c.targetsBank .M n))

/-- A write of CSR i by a cell goes through at once: permitted (R43 to R46, R189), no bank that changes hands is
targeted (R27), and no counter of a busy engine (R190). -/
def csrWriteAllowed (s : State) (cell i : Nat) (v : Word) : Bool :=
  let c := s.core
  let debug := match c.task with
    | some t => bits (s.dist.contexts[t.ctx]?.getD 0).toNat 2 2 == 1
    | none => false
  (if c.csr.priv then supervisorWrites c i else userWrites debug i) && counterFree c i && banksFree c cell i v

/-- The writing cells (R188): header, cell, width, register, index. -/
def csrWriteForm (i : Instr) : Option (Hdr × Nat × Nat × Nat × Nat) :=
  match i with
  | .csrw h w d n => some (h, 0, w.toNat, d.toNat, n.toNat)
  | .csrs h w d n => some (h, 1, w.toNat, d.toNat, n.toNat)
  | .csrc h w d n => some (h, 2, w.toNat, d.toNat, n.toNat)
  | _ => none

/-- A cell's number as the operation it applies. -/
def csrOp (cell : Nat) : CsrOp :=
  match cell with
  | 0 => .write
  | 1 => .set
  | _ => .clear

/-- The core after an allowed CSR write of one word, or of a pair whose second word is allowed as well. -/
def csrWritten (s : State) (cell w d i : Nat) : Option Core :=
  let lo := s.core.reg d
  let hi := s.core.reg (d + 1)
  if !csrWriteAllowed s cell i lo then none
  else if w = 0 then some (csrApply s.core (csrOp cell) i lo)
  else if !csrWriteAllowed s cell (i + 1) hi then none
  else some (csrApply (csrApply s.core (csrOp cell) i lo) (csrOp cell) (i + 1) hi)

/-- CSRR (R188): user mode reads no CSR from 0x100 on (R43). -/
def csrReadResult (i : Instr) (s : State) : Option RegWrite :=
  match i with
  | .csrr h w d n =>
    let word := fun k => (csrRead s.det s.time s.core k).toNat
    if s.core.csr.priv || decide (n.toNat + w.toNat < 0x100) then
      some ⟨h, d.toNat, w.toNat, if w = 0 then word n.toNat else word n.toNat + 2 ^ 32 * word (n.toNat + 1)⟩
    else none
  | _ => none

/-- The core in which SYNC has made V, M and L's end of compute known (R179, R369, R243), or the end of the exchange
block (R180); the front end holds SYNC. -/
def synced (c : Core) (i : Instr) (ws : List Wait) : Option Core :=
  let hold := fun (k : Core) => some { k with held := some { instr := i, why := .sync, waits := ws } }
  if c.pst = .exchange then hold { c with pst := .xready, sigLeft := 6 }
  else if (c.pst = .compute ∨ c.pst = .straggler) ∧
      (engineIdle c.engV && engineIdle c.engM && engineIdle c.engL) = true then
    hold { c with
      pst := .ready
      sigLeft := 6
      csr := { c.csr with strk := if c.pst = .compute then 0 else c.csr.strk }
      matrix := { c.matrix with active := .reset, shadow := .reset } }
  else none

/-- What the system cells leave where nothing refuses or holds them: the whole next state. SVC and BKPT cost the 4 core
cycles of the trap entry alone (R176); a BKPT that halts costs 1, and an ERET to user mode restores a resumed task's saved
words: both are the model's choice (logs 102, 92). -/
def systemNext (i : Instr) (s : State) : Option State :=
  let c := s.core
  let after := fun (h : Hdr) (k : Core) => some { s with core := c.retireFrom h 1 k }
  let reg := fun (h : Hdr) (d : BitVec 6) (v : Nat) => after h (c.setReg d.toNat (BitVec.ofNat 32 v))
  let lend := fun (h : Hdr) (n : BitVec 3) (own : Nat) (lose : Eng) =>
    if bitAt c.csr.accown.toNat n.toNat = own then after h c
    else if c.targetsBank lose n.toNat then none
    else after h { c with csr := { c.csr with accown := c.csr.accown ^^^ (1#8 <<< n.toNat) } }
  let trapped := fun (h : Hdr) (code : Nat) (k : BitVec 11) =>
    if c.csr.priv then none
    else
      let c1 := c.retireFrom h 0 c
      some { s with core := c1.enterTrap s.det (
       { code := code, word := 0, eng := 0, imp := false, sub := 0, epc := c1.pc, etval := BitVec.ofNat 32 k.toNat }) }
  match i with
  | .nop h => after h c
  | .iter h => if c.csr.phase.toNat % 2 = 0 then after h { c with iterMark := true } else none
  | .sync h => (synced c (.sync h) (scalarWaits c (.sync h) h)).map (fun k => { s with core := k })
  | .eret _ =>
    if !c.csr.priv then none
    else
      let k : Core := { c with
        pc := BitVec.ofNat 16 (c.csr.epc.toNat / 4 * 4)
        task := c.task.map (fun f => { f with preempting := false })
        csr := { c.csr with priv := c.csr.estatus.toNat % 2 == 1 } }
      let k := ((((k.release .V).release .M).release .L).release .E).restoreSaved
      some { s with core := k.count 3 c.userCode }
  | .svc h k => trapped h 0x10 k
  | .bkpt h k =>
    if c.csr.dbgctl.toNat % 2 = 0 then trapped h 0x11 k
    else some { s with core := (c.retireFrom h 1 c).halt 3 }
  | .qpop h d n =>
    match c.queue n.toNat with
    | v :: q => after h ((c.setQueue n.toNat q).setReg d.toNat v)
    | [] => none
  | .qstat h d n => reg h d ((c.queue n.toNat).length + if c.queueTargeted n.toNat then 16 else 0)
  | .rng h d a =>
    reg h d (hash (c.csr.seedlo.toNat + 2 ^ 32 * c.csr.seedhi.toNat)
      (if a = 0 then 0 else c.group (2 * a.toNat) 1))
  | .lendM h n => lend h n 0 .V
  | .lendV h n => lend h n 1 .M
  | _ => none

/-- LOOP and LOOPI (R172), where a level is free: the core and where it goes. -/
def loopNext (i : Instr) (c : Core) : Option (Hdr × Core) :=
  let go := fun (h : Hdr) (n : Nat) (e : Nat) =>
    let beg := (mainAt c h + 4) % 2 ^ 16
    let fin := (beg + e * 4) % 2 ^ 16
    let k := c.csr.lpdep.toNat
    if 4 ≤ k then none
    else if n = 0 then some (h, wentTo c c ((fin + 4) % 2 ^ 16) 3)
    else some (h, wentTo c
     { c with csr := { c.csr with
      lpbeg := c.csr.lpbeg.setIfInBounds k (BitVec.ofNat 32 beg)
      lpfin := c.csr.lpfin.setIfInBounds k (BitVec.ofNat 32 fin)
      lpcnt := c.csr.lpcnt.setIfInBounds k (BitVec.ofNat 32 n)
      lpdep := BitVec.ofNat 3 (k + 1) } } beg 1)
  match i with
  | .loop h a e => go h (c.reg a.toNat).toNat e.toNat
  | .loopi h n e => go h (match h.limm with
      | none => n.toNat
      | some v => v.toNat % 2 ^ 22 * 2 ^ 10 + n.toNat) e.toNat
  | _ => none

end Sys2Proof.Claims

/-! ## Engine instructions: dispatch -/

namespace Sys2Proof.Claims
open Sys2Proof.Machine

/-- The main word of an instruction, as R195 puts it into ETVAL. -/
def main (i : Instr) : Nat := encodeMain i

/-- The trap (CODE, SUB, ETVAL) of R21: the lowest case that any handle fails, at the first that fails it. w is the main
word. -/
def handlesTrap (us : List HandleUse) (w : Nat) : Option (Nat × Nat × Nat) :=
  if us.any (fun u => hIllegal u.h || (u.dest && hRo u.h)) then some (1, 6, w)
  else (us.findSome? (fun u => (hMisaligned u.h).map (fun a => (9, 2, a)))).or
    ((us.find? (fun u => hUnpacked u.h)).map (fun u => (9, 3, hD0 u.h)))

/-- What an engine instruction names and captures, and whether the format and shape checks of its cell pass. -/
structure EngineForm where
  hdr : Hdr
  uses : List HandleUse
  scalars : List Nat
  formats : Bool
  shapes : Bool

/-- The trap at dispatch: R21, then the formats, then the shapes, which are not checked where a handle describes no
elements (R21, R206, R241, R272, R273). w is the main word. -/
def EngineForm.trap (f : EngineForm) (w : Nat) : Option (Nat × Nat × Nat) :=
  (handlesTrap f.uses w).or
    (if !f.formats then some (1, 5, w)
     else if !f.shapes && !f.uses.any (fun u => hD0 u.h * hD1 u.h * hD2 u.h == 0) then some (1, 6, w)
     else none)

/-- The checks at dispatch pass. -/
def EngineForm.good (f : EngineForm) : Bool := (f.trap 0).isNone

/-- A source extent is the destination's or 1 (R206). -/
def broadcastable (x d : HandleBits) : Bool :=
  [(hD0 x, hD0 d), (hD1 x, hD1 d), (hD2 x, hD2 d)].all (fun p => p.1 == p.2 || p.1 == 1)

/-- Two handles have equal extents. -/
def equalShape (x y : HandleBits) : Bool := hD0 x == hD0 y && hD1 x == hD1 y && hD2 x == hD2 y

/-- The integer codes of R207. -/
def integerCode (x : HandleBits) : Bool := [8, 9, 12, 13, 14].contains (hFmt x)

/-- The words of k registers from n on. -/
def wordsFrom (c : Core) (n k : Nat) : List Nat := (List.range k).map (fun j => (c.reg (n + j)).toNat)

/-- The cells of R201 with what they name and the format and shape rows of R206, R207 and R224. -/
def vectorForm (i : Instr) (c : Core) : Option EngineForm :=
  let H := fun (x : BitVec 4) => c.handle x.toNat
  let dst := fun (x : BitVec 4) => HandleUse.mk (H x) true
  let src := fun (x : BitVec 4) => HandleUse.mk (H x) false
  let quad := fun (q : BitVec 4) => if q = 0 then [] else wordsFrom c (4 * q.toNat) 4
  let one := fun (h : Hdr) (d a : BitVec 4) (f : Bool) => some (EngineForm.mk h [dst d, src a] [] f (broadcastable (H a) (H d)))
  let two := fun (h : Hdr) (d a b : BitVec 4) (s : BitVec 6) (f : List HandleBits → Bool) =>
    if s = 0 then some (EngineForm.mk h [dst d, src a, src b] [] (f [H d, H a, H b])
      (broadcastable (H a) (H d) && broadcastable (H b) (H d)))
    else some (EngineForm.mk h [dst d, src a] [(c.reg s.toNat).toNat] (f [H d, H a]) (broadcastable (H a) (H d)))
  let any := fun (_ : List HandleBits) => true
  let ints := fun (l : List HandleBits) => l.all integerCode
  let trans := fun (h : Hdr) (d a : BitVec 4) =>
    one h d a (decide (hFmt (H d) ≤ 7) || hFmt (H d) == 10 || hFmt (H d) == 11)
  let logic := fun (h : Hdr) (d a b : BitVec 4) (s : BitVec 6) =>
    two h d a b s (fun l => l.all integerCode && hFmt (H a) == hFmt (H d))
  let count := fun (h : Hdr) (d a : BitVec 4) =>
    one h d a (integerCode (H d) && integerCode (H a) && hFmt (H a) == hFmt (H d))
  let red := fun (h : Hdr) (d a : BitVec 4) => some (EngineForm.mk h [dst d, src a] [] true
    (hD0 (H d) == 1 && hD1 (H d) == hD1 (H a) && hD2 (H d) == hD2 (H a)))
  let redQ := fun (h : Hdr) (a : BitVec 4) => some (EngineForm.mk h [src a] [] true true)
  let three := fun (h : Hdr) (d a b : BitVec 4) (f s : Bool) => some (EngineForm.mk h [dst d, src a, src b] [] f s)
  let indexed := fun (d a b : BitVec 4) => hFmt (H a) == hFmt (H d) && integerCode (H b)
  match i with
  | .vadd h d a b s => two h d a b s any
  | .vsub h d a b s => two h d a b s any
  | .vmul h d a b s => two h d a b s any
  | .vfma h d a b s => two h d a b s any
  | .vmin h d a b s => two h d a b s any
  | .vmax h d a b s => two h d a b s any
  | .vcmpEq h d a b s => two h d a b s any
  | .vcmpNe h d a b s => two h d a b s any
  | .vcmpLt h d a b s => two h d a b s any
  | .vcmpLe h d a b s => two h d a b s any
  | .vabs h d a => one h d a true
  | .vneg h d a => one h d a true
  | .vrcp h d a => trans h d a
  | .vrsq h d a => trans h d a
  | .vexp2 h d a => trans h d a
  | .vlog2 h d a => trans h d a
  | .vsin h d a => trans h d a
  | .vcos h d a => trans h d a
  | .vtanh h d a => trans h d a
  | .vsigm h d a => trans h d a
  | .viadd h d a b s => two h d a b s ints
  | .visub h d a b s => two h d a b s ints
  | .vimul h d a b s => two h d a b s ints
  | .vand h d a b s => logic h d a b s
  | .vor h d a b s => logic h d a b s
  | .vxor h d a b s => logic h d a b s
  | .vshl h d a b s => logic h d a b s
  | .vshr h d a b s => logic h d a b s
  | .vsra h d a b s => logic h d a b s
  | .vclz h d a => count h d a
  | .vpopc h d a => count h d a
  | .vbilv h d a b _ => three h d a b ([H d, H a, H b].all (fun x => hFmt x == 12))
      (broadcastable (H a) (H d) && broadcastable (H b) (H d))
  | .vmsel h d a k s => some ⟨h, [dst d, src a, src k], [(c.reg s.toNat).toNat], true,
      broadcastable (H a) (H d) && broadcastable (H k) (H d)⟩
  | .vmselM h d a k => three h d a k true (broadcastable (H a) (H d) && broadcastable (H k) (H d))
  | .vcvt h d a q _ => some ⟨h, [dst d, src a], quad q, true, broadcastable (H a) (H d)⟩
  | .vqnt h d a q => some ⟨h, [dst d, src a], quad q,
      decide (1 ≤ hFmt (H d) ∧ hFmt (H d) ≤ 11) && hBlk (H d) != 0, broadcastable (H a) (H d)⟩
  | .vdqt h d a q => some ⟨h, [dst d, src a], quad q, true, broadcastable (H a) (H d)⟩
  | .vpermb h d a b => three h d a b true (hBytes (H d) == hBytes (H b) && decide (hBytes (H a) ≤ 256))
  | .vshuf h d a b => three h d a b (indexed d a b) (equalShape (H a) (H d))
  | .vgath h d a b => three h d a b (indexed d a b) (equalShape (H b) (H d))
  | .vscat h d a b => three h d a b (indexed d a b) (equalShape (H b) (H a))
  | .vbcast h d a s =>
    if s = 0 then some ⟨h, [dst d, src a], [], true, true⟩ else some ⟨h, [dst d], [(c.reg s.toNat).toNat], true, true⟩
  | .vmov h d a => one h d a (hFmt (H a) == hFmt (H d))
  | .vrsum h d a => red h d a
  | .vrmax h d a => red h d a
  | .vrmin h d a => red h d a
  | .vrsumQ h _ a => redQ h a
  | .vrmaxQ h _ a => redQ h a
  | .vrminQ h _ a => redQ h a
  | .vscan h d a _ => some ⟨h, [dst d, src a], [], true, equalShape (H a) (H d)⟩
  | .vrng h d q => some ⟨h, [dst d], quad q, true, true⟩
  | .vdrop h d o => some ⟨h, [dst d], wordsFrom c (8 * o.toNat) 8, true, true⟩
  | .vnorm h d a b p => some ⟨h, [dst d, src a, src b], if p = 0 then [] else wordsFrom c (2 * p.toNat) 2,
      decide (hFmt (H d) ≤ 7) || hFmt (H d) == 10 || hFmt (H d) == 11,
      equalShape (H a) (H d) && hD0 (H b) == hD0 (H d) && hD1 (H b) == 1 && hD2 (H b) == 1⟩
  | .vsmax h d a s => some ⟨h, [dst d, src a], if s = 0 then [] else [(c.reg s.toNat).toNat],
      decide (hFmt (H d) ≤ 7) || hFmt (H d) == 10 || hFmt (H d) == 11, equalShape (H a) (H d)⟩
  | _ => none

/-- The matrix cells with the checks of R241. -/
def matrixForm (i : Instr) (c : Core) : Option EngineForm :=
  let H := fun (x : BitVec 4) => c.handle x.toNat
  let within := fun (x : BitVec 4) (d0 d1 : Nat) => decide (hD0 (H x) ≤ d0 ∧ hD1 (H x) ≤ d1 ∧ hD2 (H x) = 1)
  let src := fun (h : Hdr) (x : BitVec 4) (xs : List Nat) (top d0 d1 : Nat) =>
    some (EngineForm.mk h [⟨H x, false⟩] xs (decide (hFmt (H x) ≤ top)) (within x d0 d1))
  let row := fun (h : Hdr) (x : BitVec 4) (d0 : Nat) =>
    some (EngineForm.mk h [⟨H x, false⟩] [] (decide (hFmt (H x) ≤ 2)) (within x d0 1 && hD1 (H x) == 1))
  let plain := fun (h : Hdr) => some (EngineForm.mk h [] [] true true)
  match i with
  | .mcfg h _ _ => plain h
  | .mws h => plain h
  | .mza h _ _ => plain h
  | .mdrn h => plain h
  | .mstat h _ => plain h
  | .mwl h x => src h x [] 11 256 512
  | .mms h x _ _ s => src h x [(c.reg s.toNat).toNat] 11 256 256
  | .mmsz h x _ _ s => src h x [(c.reg s.toNat).toNat] 11 256 256
  | .msclC h x _ => src h x [] 2 512 256
  | .msclR h x _ => row h x 256
  | .msclK h x => row h x 512
  | .mrd h x _ _ _ => some ⟨h, [⟨H x, true⟩], [], true, within x 64 256⟩
  | .mwr h x _ _ => some ⟨h, [⟨H x, false⟩], [], true, within x 64 256⟩
  | _ => none

/-- The local copies with the checks of R272 to R274. -/
def copyForm (i : Instr) (c : Core) : Option EngineForm :=
  let H := fun (x : BitVec 4) => c.handle x.toNat
  match i with
  | .xcpy h d s => some ⟨h, [⟨H d, true⟩, ⟨H s, false⟩], [], hFmt (H d) == hFmt (H s),
      hD0 (H d) * hD1 (H d) * hD2 (H d) == hD0 (H s) * hD1 (H s) * hD2 (H s)⟩
  | .xtrn h d s => some ⟨h, [⟨H d, true⟩, ⟨H s, false⟩], [],
      hFmt (H d) == hFmt (H s) && !([5, 6, 7, 9, 11].contains (hFmt (H d))),
      hD0 (H d) == hD1 (H s) && hD1 (H d) == hD0 (H s) && hD2 (H d) == hD2 (H s)⟩
  | .xfill h d a => some ⟨h, [⟨H d, true⟩], [(c.reg a.toNat).toNat], true, true⟩
  | _ => none

/-- An engine instruction dispatches: its guard is true, its phase is right (R54: V, M and L in compute, E in an
exchange block), and its queue has room (R37). -/
def mayDispatch (c : Core) (h : Hdr) (e : Eng) : Bool :=
  c.guard h && (c.csr.phase.toNat % 2 == (if e = .E then 1 else 0)) &&
  decide ((c.eng e).queue.length < (match e with | .V => 16 | .M => 16 | .L => 8 | .E => 32))

/-- The core after a dispatch: the instruction stands last in its engine's queue with what it captured (R22, R41,
R80, R129, R187), ISS counts it (R38), V, M and L clear the iteration mark (R181), and it retires. -/
def dispatched (c0 c : Core) (i : Instr) (h : Hdr) (e : Eng) (hs : List HandleBits) (xs : List Nat) (id : Word) : Core :=
  let x : Entry := { instr := i, handles := hs, scalars := xs, waits := captureWaits c0 h, fpctl := c0.csr.fpctl
                     seed := c0.csr.seedlo.toNat + 2 ^ 32 * c0.csr.seedhi.toNat, accown := c0.csr.accown
                     priv := c0.csr.priv, xid := id, stage := .queued, phase := c0.csr.phase }
  let g := c0.eng e
  let c1 := c.setEng e { g with queue := g.queue ++ [x], iss := g.iss + 1 }
  let c2 : Core := if e = .E then c1 else { c1 with iterMark := false }
  c0.retireFrom h 1 (c2.noteToken e)

/-! ## Exchange instructions -/

/-- The kind of an address (R280, R281): 0 virtual, 1 a core's window, 2 a group, 256 plus the kind of a device
resource. -/
def kindOf (a : Nat) : Nat := if a / 2 ^ 62 % 4 = 3 then 256 + a / 2 ^ 56 % 64 else a / 2 ^ 62 % 4

/-- An address of a transfer, the kinds that its cell accepts (R282), and the alignment of a virtual one. -/
structure Target where
  addr : Nat
  kinds : List Nat
  align : Nat

/-- SUB 0 of R283 passes: the kind is accepted, the bits that it does not name are zero, and a group is of 2 to 64 cores
that begin at a multiple of its size. -/
def Target.named (x : Target) : Bool :=
  let a := x.addr
  x.kinds.contains (kindOf a) &&
  (match kindOf a with
   | 0 => decide (a % 2 ^ 62 < 2 ^ 52)
   | 1 => a % 2 ^ 62 == bits a 40 30 * 2 ^ 30 + a % 2 ^ 24
   | 2 =>
     let l := bits a 50 40
     let g := bits a 53 51
     a % 2 ^ 62 == g * 2 ^ 51 + l * 2 ^ 40 + a % 2 ^ 24 && decide (1 ≤ g ∧ g ≤ 6) && l % 2 ^ g == 0
   | 257 => decide (a % 2 ^ 56 < 2 ^ 27)
   | 259 => a % 2 ^ 56 == bits a 51 46 * 2 ^ 46
   | 260 => a % 2 ^ 56 == bits a 51 46 * 2 ^ 46
   | 261 => decide (a % 2 ^ 56 < 64)
   | 262 => decide (a % 2 ^ 56 < 2 ^ 48)
   | _ => false)

/-- The alignment that SUB 1 asks of an address: 16, of a virtual one that of its cell. -/
def Target.aligned (x : Target) : Bool :=
  match kindOf x.addr with
  | 0 => x.addr % x.align == 0
  | 1 => x.addr % 16 == 0
  | 2 => x.addr % 16 == 0
  | 257 => x.addr % 16 == 0
  | 261 => x.addr % 16 == 0
  | 262 => x.addr % 16 == 0
  | _ => true

/-- A range of n bytes from an address stays within its part of the window, its port's staging or its resource (SUB 1). -/
def Target.holds (x : Target) (n : Nat) : Bool :=
  let a := x.addr
  match kindOf a with
  | 1 => decide (a % 2 ^ 20 + n ≤ windowEnd (a % 2 ^ 20))
  | 2 => decide (a % 2 ^ 20 + n ≤ windowEnd (a % 2 ^ 20))
  | 257 => n == 0 || a % 2 ^ 27 / 2 ^ 23 == (a % 2 ^ 27 + n - 1) / 2 ^ 23
  | 261 => decide (a % 64 + n ≤ 64)
  | 262 => decide (a % 2 ^ 24 + n ≤ 2 ^ 24)
  | _ => true

/-- The core, or all members of the group, that an address names belong to the task's gang (SUB 2). -/
def Target.inGang (c : Core) (x : Target) : Bool :=
  let a := x.addr
  let origin := c.csr.coreL.toNat - c.csr.gang.toNat % 2 ^ 11
  let size := c.csr.gang.toNat / 2 ^ 11 + 1
  let within := fun l n => decide (origin ≤ l ∧ l + n ≤ origin + size)
  match kindOf a with
  | 1 => within (bits a 40 30) 1
  | 2 => within (bits a 50 40) (2 ^ bits a 53 51)
  | _ => true

/-- A data handle whose row starts and row byte lengths are multiples of 16 (R283). -/
def dataGood (x : HandleBits) : Bool :=
  hD1 x * hD2 x == 0 ||
  (hRowBytes x % 16 == 0 && hBase x % 16 == 0 && (decide (hD1 x ≤ 1) || hS1 x % 16 == 0) &&
   (decide (hD2 x ≤ 1) || hS2 x % 16 == 0))

/-- A transfer: its header, channel, handles and captured numbers (two addresses and the count), and what its checks ask:
the ILLEGAL SUB of a format or a shape that its cell refuses, its addresses, its data handle, whether its count is of bytes,
so that ranges are checked, and a check of its own with SUB and ETVAL. -/
structure XferForm where
  hdr : Hdr
  chan : Nat
  uses : List HandleUse
  scalars : List Nat
  cell : Option Nat
  targets : List Target
  rows : Option HandleBits
  ranged : Bool
  own : Option (Nat × Nat)

/-- The count of a transfer. -/
def XferForm.count (f : XferForm) : Nat := f.scalars.getD 2 0

/-- The trap at dispatch (R21, R283): the handles, the cell, then the lowest SUB of XFAULT that fails, of SUB 1 in the order of
its row. w is the main word. -/
def XferForm.trap (f : XferForm) (c : Core) (w : Nat) : Option (Nat × Nat × Nat) :=
  let n := f.count
  let first := fun (sub : Nat) (p : Target → Bool) (v : Nat → Nat) =>
    (f.targets.find? (fun x => !p x)).map (fun x => (11, sub, v x.addr))
  let low := fun (a : Nat) => a % 2 ^ 32
  (handlesTrap f.uses w).or ((f.cell.map (fun sub => (1, sub, w))).or
    ((first 0 Target.named (· / 2 ^ 32)).or ((first 1 Target.aligned low).or
    ((if f.rows.all dataGood then none else some (11, 1, n)).or ((f.own.map (fun q => (11, q.1, q.2))).or
    ((if f.ranged && (n % 16 != 0 || !f.rows.all (fun x => decide (n ≤ hBytes x))) then some (11, 1, n) else none).or
    ((if f.ranged then first 1 (Target.holds · n) low else none).or (first 2 (Target.inGang c) low))))))))

/-- The transfers (R275, R282 to R306). -/
def xferForm (i : Instr) (c : Core) : Option XferForm :=
  let H := fun (x : BitVec 4) => c.handle x.toNat
  let pair := fun (a : BitVec 5) => c.group (2 * a.toNat) 1
  let low := fun (a : BitVec 4) => c.group (4 * a.toNat) 1
  let high := fun (a : BitVec 4) => c.group (4 * a.toNat + 2) 1
  let lim := fun (h : Hdr) (n : Nat) => match h.limm with
    | none => n
    | some v => v.toNat
  let no := fun (sub : Nat) (ok : Bool) => if ok then none else some sub
  let bytes := fun (h : Hdr) (x : BitVec 4) (dest : Bool) (a : BitVec 5) (ch : BitVec 2) (kinds : List Nat) (cell : Bool) =>
    some (XferForm.mk h ch.toNat [⟨H x, dest⟩] [pair a, 0, lim h (hBytes (H x))] (no 5 cell) [⟨pair a, kinds, 16⟩]
      (some (H x)) true none)
  let atom := fun (h : Hdr) (o s : BitVec 4) (a : BitVec 5) (ch : BitVec 2) =>
    some (XferForm.mk h ch.toNat [⟨H s, false⟩] [pair a, 0, 16]
      (no 5 (if o = 1 then hFmt (H s) == 0 else if o = 2 ∨ o = 3 then hFmt (H s) == 0 || hFmt (H s) == 12 else hFmt (H s) == 12))
      [⟨pair a, [0], 4⟩] none false (if hBase (H s) % 32 = 0 then none else some (1, hBase (H s))))
  match i with
  | .xput h s a ch _ => bytes h s false a ch [1] true
  | .xget h d a ch _ => bytes h d true a ch [1, 261] true
  | .xbc h s a ch _ => bytes h s false a ch [2] true
  | .xld h d a ch _ => bytes h d true a ch [257] true
  | .xdec h d a ch => bytes h d true a ch [260] true
  | .xrdev h s a ch _ => bytes h s false a ch [262] ([0, 1, 2, 12].contains (hFmt (H s)))
  | .xldg h d a ch m => bytes h d true a ch [2]
      (match m.toNat with
       | 0 => [0, 1, 2, 12].contains (hFmt (H d))
       | 3 => [8, 12, 13, 14].contains (hFmt (H d))
       | _ => [0, 1, 2, 8, 12, 13, 14].contains (hFmt (H d)))
  | .xpf h a ch => some ⟨h, ch.toNat, [], [low a, high a, lim h 0], none, [⟨low a, [0], 16⟩, ⟨high a, [257], 16⟩], none, true, none⟩
  | .xst h s a ch _ => some ⟨h, ch.toNat, [⟨H s, false⟩], [low a, high a, lim h (hBytes (H s))], none,
      [⟨low a, [257], 16⟩, ⟨high a, [0], 16⟩], some (H s), true, none⟩
  | .xatmGrp h o s a ch _ => atom h o s a ch
  | .xatmGang h o s a ch _ => atom h o s a ch
  | .xatmDev h o s a ch _ => atom h o s a ch
  | .xatmSys h o s a ch _ => atom h o s a ch
  | .xgth h d s a ch =>
    let n := lim h (hD0 (H s) * hD1 (H s) * hD2 (H s))
    some ⟨h, ch.toNat, [⟨H d, true⟩, ⟨H s, false⟩], [pair a, 0, n], no 5 (hFmt (H s) == 12), [⟨pair a, [257], 16⟩],
      some (H d), false, if n ≤ hD1 (H d) * hD2 (H d) then none else some (1, n)⟩
  | .xenc h s a ch _ => some ⟨h, ch.toNat, [⟨H s, false⟩], [pair a, 0, lim h (hD1 (H s) * hD2 (H s))], none,
      [⟨pair a, [259], 16⟩], some (H s), false, none⟩
  | .xovl h a ch => some ⟨h, ch.toNat, [], [pair a, 0, 64], none, [⟨pair a, [0, 257], 16⟩], none, false, none⟩
  | .xsig h a ch _ =>
    let n := (c.reg a.toNat).toNat
    some ⟨h, ch.toNat, [], [c.csr.sigmap.toNat % 2 ^ 16 + n, lim h 1, 0], none, [], none, false,
      if n < c.csr.sigmap.toNat / 2 ^ 16 % 256 then none else some (3, n)⟩
  | .xlaunch h s a ch => some ⟨h, ch.toNat, [⟨H s, false⟩], [pair a, 0, 64],
      no 6 (hD0 (H s) * hD1 (H s) * hD2 (H s) == 0 || (hBytes (H s) == 64 && hD1 (H s) * hD2 (H s) == 1)),
      [⟨pair a, [0], 128⟩], none, false, none⟩
  | _ => none

/-- The exchange instructions that are no transfers (R307 to R309): header, captured numbers, and for XWAIT that the
identifier has been issued (R283). -/
def waitForm (i : Instr) (c : Core) : Option (Hdr × List Nat × Bool) :=
  match i with
  | .xarm h n a => some (h, [n.toNat, (c.reg a.toNat).toNat], true)
  | .xarmImm h n => some (h, [n.toNat, match h.limm with | none => 0 | some v => v.toNat], true)
  | .xwait h a ch => some (h, [(c.reg a.toNat).toNat],
      decide (2 ^ 31 ≤ (((c.reg a.toNat).toNat : Int) - (vec4 c.csr.xnext ch.toNat).toNat) % 2 ^ 32))
  | .xwaitL h n => some (h, [n.toNat], true)
  | .xfence h ch => some (h, [(vec4 c.csr.xnext ch.toNat).toNat], true)
  | _ => none

/-- The trap (CODE, SUB, ETVAL) of the checks at dispatch of an engine instruction (R21, R206, R241, R272, R273, R283). -/
def formTrap (i : Instr) (c : Core) : Option (Nat × Nat × Nat) :=
  let w := main i
  ((((vectorForm i c).or (matrixForm i c)).or (copyForm i c)).bind (fun f => f.trap w)).or
    (((xferForm i c).bind (fun f => f.trap c w)).or
      ((waitForm i c).bind (fun f => if f.2.2 then none else some (11, 4, f.2.1.headD 0))))

end Sys2Proof.Claims

/-! ## What a held front end waits for, and reports -/

namespace Sys2Proof.Claims
open Sys2Proof.Machine

/-- The front end of core p stands at a boundary where it may go on: the core exists, its phase state lets it issue
and it is not halted (R55, R447), the core domain runs, and nothing comes first (R197). -/
def frontFree (s : State) (p : Nat) : Bool :=
  decide (p < 1600) && (s.select p).core.issues && !s.stilled && (atBoundary (s.select p)).isNone

/-- What ends a hold (R29, R37, R80, R179, R183): by the step of the agent, the reason of the hold and what is now
so. -/
def holdEnds (i : Instr) (c : Core) (x : Held) : Bool :=
  let full := fun (a z : Nat) => (granules a z).all (setHas c.seenFull)
  match i with
  | .tokenWaitSatisfied _ => x.why == .tokens && x.waits.all (waitDone c)
  | .dispatchQueueRoom _ => x.why == .room &&
      (match engineOf x.instr with
       | some .V => decide (c.engV.queue.length < 16)
       | some .M => decide (c.engM.queue.length < 16)
       | some .L => decide (c.engL.queue.length < 8)
       | some .E => decide (c.engE.queue.length < 32)
       | none => false)
  | .fullEmptyWaitSatisfied _ => x.why == .fullEmpty &&
      (match x.instr with
       | .ldW h w _ a o => full (address c h a o (4 * 2 ^ w.toNat)) (4 * 2 ^ w.toNat)
       | .ldC h w _ a o => full (address c h a o (4 * 2 ^ w.toNat)) (4 * 2 ^ w.toNat)
       | _ => false)
  | .qpopEntryArrives _ => x.why == .qpop &&
      (match x.instr with
       | .qpop _ _ n => !(c.queue n.toNat).isEmpty
       | _ => false)
  | .syncDrained _ => x.why == .sync && (c.pst == .compute || c.pst == .straggler) &&
      engineIdle c.engV && engineIdle c.engM && engineIdle c.engL
  | _ => false

/-- The core that a step of a front end names. -/
def frontOf (i : Instr) : Option Nat :=
  match i with
  | .tokenWaitSatisfied p => some p
  | .dispatchQueueRoom p => some p
  | .fullEmptyWaitSatisfied p => some p
  | .qpopEntryArrives p => some p
  | .syncDrained p => some p
  | _ => none

/-- The first engine in the order V, M, L, E with a report still to be taken (R197). -/
def firstReport (c : Core) : Option (Eng × Report) :=
  match c.engV.report, c.engM.report, c.engL.report, c.engE.report with
  | some r, _, _, _ => some (.V, r)
  | none, some r, _, _ => some (.M, r)
  | none, none, some r, _ => some (.L, r)
  | none, none, none, some r => some (.E, r)
  | none, none, none, none => none

/-- The imprecise trap of a report (R195): IMP is 1, ENG names the engine, EPC is the next instruction. -/
def reported (c : Core) (e : Eng) (r : Report) : Trap :=
  { code := r.code, word := 0, eng := (match e with | .V => 0 | .M => 1 | .L => 2 | .E => 3), imp := true
    sub := r.sub, epc := c.pc, etval := r.etval }

/-! ## Engine steps -/

/-- The debug unit holds the engines of a core: it is HALTED (R447), or its STEP command has retired its instruction
(R451). -/
def debugHolds (c : Core) : Bool :=
  c.halted ||
  (match c.dbg.stepping with
   | some st => st.host && !st.deep && st.retired && (c.pst == .compute || c.pst == .exchange || c.pst == .straggler)
   | none => false)

/-- The engines of core p may step: the core exists, the core domain runs (R358, R472), and the debug unit does not hold
them (R447, R451). -/
def mayStep (s : State) (p : Nat) : Bool := decide (p < 1600) && !s.stilled && !debugHolds (s.coreAt p)

/-- The head instruction of an engine may run: the engine is not frozen, and its token waits are satisfied. -/
def headReady (c : Core) (g : Engine) (x : Entry) : Bool :=
  g.queue.head? == some x && !g.frozen && x.waits.all (waitDone c)

/-- An engine whose head instruction has completed (R38): it leaves the queue, and DONE counts it. -/
def afterHead (g : Engine) : Engine :=
  { g with queue := g.queue.drop 1, done := g.done + 1, mpc := 0, frozen := false, report := none, pushing := none }

/-- A handle describes one element of whole bytes in the scratchpad, not scaled, read without a wait (R19, R20). -/
def oneElement (h : HandleBits) : Bool :=
  hD0 h == 1 && hD1 h == 1 && hD2 h == 1 && hBlk h == 0 && hFem h == 0 &&
  [0, 1, 2, 3, 4, 8, 10, 12, 13, 14].contains (hFmt h) && decide (hBase h + (hFormat h).width / 8 ≤ 0x80000) &&
  hBase h % ((hFormat h).width / 8) == 0

/-- The pattern of the one element. -/
def oneCode (m : Mem) (h : HandleBits) : Nat := bytesAt m (hBase h) ((hFormat h).width / 8)

/-- Source k of a vector instruction with one element: the handle's value, or the scalar as FP32 (R209). -/
def oneVal (m : Mem) (x : Entry) (k : Nat) : Val :=
  match x.handles[k]? with
  | some h => (hFormat h).value (oneCode m h)
  | none => Fmt.fp32.value (x.scalars.getD 0 0)

/-- Source k as an integer, or the scalar as INT32 (R209, R219). -/
def oneInt (m : Mem) (x : Entry) (k : Nat) : Int :=
  match x.handles[k]? with
  | some h => if hFmt h = 13 then oneCode m h else sx (oneCode m h) (hFormat h).width
  | none => sx (x.scalars.getD 0 0) 32

/-- The rounding mode that an entry captured, for an index (R127, R129): SR draws in domain 0. -/
def capturedMode (x : Entry) (index : Nat) : Mode :=
  match x.fpctl.toNat % 8 with
  | 0 => .rne | 1 => .rtz | 2 => .rup | 3 => .rdn | _ => .sr (hash x.seed index)

/-- The global index of destination element n (R210), over the descriptor's words in the scalars; without one the local
index. -/
def indexOf (x : Entry) (n : Nat) : Nat :=
  let d := x.h 0
  (match x.scalars with
   | b0 :: b1 :: p1 :: p2 :: _ => b0 + 2 ^ 32 * b1 + n % hD0 d + p1 * (n / hD0 d % hD1 d) + p2 * (n / hD0 d / hD1 d)
   | _ => n) % 2 ^ 60

/-- A scalar as INT32 where the destination's format is an integer code, else as FP32 (R209). -/
def scalarFor (d : HandleBits) (v : Nat) : Val :=
  if [8, 9, 12, 13, 14].contains (hFmt d) then .ofInt (sx v 32) else Fmt.fp32.value v

/-- The greater or lesser of two values, -0 below +0; the other one where exactly one is NaN (R216). -/
def pick (least : Bool) (a b : Val) : Val :=
  if a.isNan then b
  else if b.isNan then a
  else
    let below := a.lt b || (a.isZero && b.isZero && a.sign && !b.sign)
    let above := b.lt a || (a.isZero && b.isZero && b.sign && !a.sign)
    if least then (if above then b else a) else (if below then b else a)

/-- What a cell reads for a destination element: the values, integers and patterns of its sources by number, the value of the
destination before, and the scale of VDQT. -/
structure Operands where
  val : Nat → Val
  int : Nat → Int
  code : Nat → Nat
  old : Val
  scale : Val

/-- What a vector cell gives for destination element n (R216 to R223, R225, R229, R230, R236, R237): the pattern written,
none where VMSEL.M leaves the element, the conditions of R128, and the bits of VSTAT. The cells of R217 give one value of
those that their bounds allow (log 7). -/
def cellResult (x : Entry) (n : Nat) (o : Operands) : Option (Option Nat × Nat × Nat) :=
  let d := x.h 0
  let w := (hFormat d).width
  let a := o.val 1
  let b := o.val 2
  let ia := o.int 1
  let ib := o.int 2
  let down := x.fpctl.toNat % 8 == 3
  let at' := fun (index : Nat) (sat : Bool) (v : Val × Bool) =>
    let r := round (hFormat d) (capturedMode x index) sat v.1
    some (some r.code, r.flags ||| (if v.2 then 1 else 0), 0)
  let put := fun (v : Val × Bool) => at' n false v
  let flagged := fun (v : Val × Nat) =>
    let r := round (hFormat d) (capturedMode x n) false v.1
    some (some r.code, v.2 ||| r.flags, 0)
  let low := fun (v : Int) => (v % 2 ^ w).toNat
  let wrapped := fun (v : Int) =>
    let back : Int := if hFmt d = 13 then low v else sx (low v) w
    some (some (low v), 0, if back = v then 0 else 8)
  let pat := fun (v : Nat) => some (some v, 0, 0)
  let sh := (ib % 32).toNat
  let truth := fun (t : Bool) => put (if t then .one else .zero, false)
  let draw := fun (domain : Nat) => hash x.seed (domain * 2 ^ 60 + indexOf x n)
  let integer := [8, 9, 12, 13, 14].contains (hFmt d)
  match x.instr with
  | .vadd .. => put (a.add down b)
  | .vsub .. => put (a.add down b.neg)
  | .vmul .. => put (a.mul b)
  | .vfma .. => let p := a.mul b; let r := p.1.add down o.old; put (r.1, p.2 || r.2)
  | .vmin .. => put (pick true a b, false)
  | .vmax .. => put (pick false a b, false)
  | .vabs .. => put (a.abs, false)
  | .vneg .. => put (a.neg, false)
  | .vrcp .. => flagged (TOp.rcp.apply a)
  | .vrsq .. => flagged (TOp.rsq.apply a)
  | .vexp2 .. => flagged (TOp.exp2.apply a)
  | .vlog2 .. => flagged (TOp.log2.apply a)
  | .vsin .. => flagged (TOp.sin.apply a)
  | .vcos .. => flagged (TOp.cos.apply a)
  | .vtanh .. => flagged (TOp.tanh.apply a)
  | .vsigm .. => flagged (TOp.sigm.apply a)
  | .viadd .. => wrapped (ia + ib)
  | .visub .. => wrapped (ia - ib)
  | .vimul .. => wrapped (ia * ib)
  | .vand .. => pat ((pat32 ia &&& pat32 ib) % 2 ^ w)
  | .vor .. => pat ((pat32 ia ||| pat32 ib) % 2 ^ w)
  | .vxor .. => pat ((pat32 ia ^^^ pat32 ib) % 2 ^ w)
  | .vshl .. => pat (low ia * 2 ^ sh % 2 ^ w)
  | .vshr .. => pat (low ia / 2 ^ sh)
  | .vsra .. => pat (low (sx (low ia) w / 2 ^ sh))
  | .vclz .. => pat (countTo w (fun k => decide (low ia < 2 ^ k)))
  | .vpopc .. => pat (sumTo w (bitAt (low ia)))
  | .vbilv _ _ _ _ three =>
    let p := pat32 ia
    let q := pat32 ib
    pat ((if three = 1 then sumTo 10 (fun i => (bitAt p i + 2 * bitAt q i + 4 * bitAt q (16 + i)) * 8 ^ i)
      else sumTo 16 (fun i => (bitAt p i + 2 * bitAt q i) * 4 ^ i)) % 2 ^ w)
  | .vcmpEq .. => truth (a.eqv b)
  | .vcmpNe .. => truth (!a.eqv b)
  | .vcmpLt .. => truth (a.lt b)
  | .vcmpLe .. => truth (a.lt b || a.eqv b)
  | .vmsel .. => if b.isZero then put (scalarFor d (x.scalars.getD 0 0), false) else put (a, false)
  | .vmselM .. => if b.isZero then some (none, 0, 0) else put (a, false)
  | .vcvt _ _ _ _ sat => at' (indexOf x n) (sat == 1) (a, false)
  | .vdqt .. => at' (indexOf x n) false (a.mul o.scale)
  | .vbcast .. => put (if x.handles.length = 1 then scalarFor d (x.scalars.getD 0 0) else a, false)
  | .vmov .. => (x.handles[1]?).map (fun _ => (some (o.code 1), 0, 0))
  | .vrng .. =>
    let r := draw 1
    if integer then pat (r % 2 ^ w)
    else
      let q := round (hFormat d) .rtz false (.fin false r (2 ^ 32))
      some (some q.code, q.flags, 0)
  | .vdrop .. =>
    let t := x.scalars.getD 4 0
    at' (indexOf x n) false (if draw 2 < t ∨ t = 0xFFFFFFFF then scalarFor d (x.scalars.getD 5 0) else .zero, false)
  | _ => none

/-- What a vector cell writes to its one element, with the conditions and the bits of VSTAT. -/
def oneResult (m : Mem) (x : Entry) (d : HandleBits) : Option (Nat × Nat × Nat) :=
  (cellResult x 0 {
    val := oneVal m x
    int := oneInt m x
    code := fun k => oneCode m (x.h k)
    old := (hFormat d).value (oneCode m d)
    scale := .one }).bind (fun r => r.1.map (fun v => (v, r.2)))

/-- A vector instruction with one element stands at the head of V, and nothing of R211 to R214 keeps its one step from
taking effect. -/
def oneStep (c : Core) (x : Entry) : Bool :=
  headReady c c.engV x && c.engV.mpc == 0 && c.vmet.isNone && c.vrows.isEmpty && x.handles.all oneElement &&
  x.handles.all (fun h => clean c (hBase h) ((hFormat h).width / 8)) && bits x.fpctl.toNat 8 4 == 0 &&
  decide (x.handles.length = 2 ∨ x.handles.length = 3)

/-- The core after that step: the element is written, its granule is full, the conditions are noted, the write of a part
of an 8-byte word is charged to VD (R340), and the instruction has completed. -/
def afterOne (c : Core) (d : HandleBits) (r : Nat × Nat × Nat) : Core :=
  { c.lose (hBase d / 16) 3 2 with
    mem := writeLE c.mem (hBase d) ((hFormat d).width / 8) r.1
    full := setAdd c.full (hBase d / 16)
    vpushed := false
    csr := { c.csr with
      fpctl := c.csr.fpctl ||| BitVec.ofNat 32 (r.2.1 * 2 ^ 16)
      vstat := c.csr.vstat ||| BitVec.ofNat 32 r.2.2 }
    engV := afterHead c.engV }

/-- The matrix engine's head instruction has completed, and with it those behind it whose work has ended (R248), up to
one that met poison or a plane's mark (R267); k is the core with the head's own effect. -/
def afterMatrixHead (c k : Core) : Core :=
  let a := c.matrix.ahead.take (c.engM.queue.length - 1)
  let n := (a.takeWhile (fun q => q.ended && q.met.isNone && q.mark.isNone)).length
  { k with
    engM := { afterHead c.engM with
      queue := c.engM.queue.drop (n + 1), done := c.engM.done + BitVec.ofNat 32 (n + 1)
      mpc := (a[n]?.map (fun q => BitVec.ofNat 32 q.steps)).getD 0 }
    matrix := { k.matrix with
      ahead := if n < a.length then c.matrix.ahead.drop (n + 1) else []
      met := a[n]?.bind (fun q => q.met)
      mark := a[n]?.bind (fun q => q.mark) } }

/-- Matrix instructions of one step (R254, R264, R265) that have taken no step yet and met no poison, and what they leave. -/
def afterMatrix (c : Core) (x : Entry) : Option Core :=
  if c.engM.mpc ≠ 0 ∨ c.matrix.met ≠ none ∨ c.matrix.mark ≠ none ∨ x.handles ≠ [] then none
  else match x.instr with
  | .mcfg _ k g => some (afterMatrixHead c
      { c with matrix := { c.matrix with gw := g, mem := BitVec.ofNat 3 k.toNat } })
  | .mdrn .. => some (afterMatrixHead c { c with matrix := { c.matrix with active := .reset, shadow := .reset } })
  | .mstat _ n =>
    if (c.queue n.toNat).length < 8 then
      some (afterMatrixHead c (c.setQueue n.toNat (c.queue n.toNat ++ [csrRead false 0 c 0x051])))
    else none
  | _ => none

/-- An MWS that may run behind the head of M (R247): it is the first that has not begun, the work of all before it
has ended, and no token wait is open. -/
def swapAhead (c : Core) (k : Nat) : Bool :=
  !c.engM.frozen && decide (1 ≤ k) && decide (c.matrix.ahead.length + 1 = k) &&
  c.matrix.ahead.all (fun q => q.ended) &&
  (match c.engM.queue.head?, (c.engM.queue[k]? : Option Entry) with
   | some y, some x => decide (0 < entrySteps y ∧ entrySteps y ≤ c.engM.mpc.toNat) && (match x.instr with | .mws _ => true | _ => false)
   | _, _ => false) &&
  (c.engM.queue.take (k + 1)).all (fun x => x.waits.all (waitDone c))

/-- The planes exchanged by an MWS behind the head, with its work ended (R247, R256). -/
def afterSwap (c : Core) : Core :=
  { c with matrix := { c.matrix with
    active := c.matrix.shadow, shadow := c.matrix.active
    ahead := c.matrix.ahead ++ [{ steps := 1, ended := true, stopped := false, met := none, mark := none }] } }

/-- XFILL and XCPY of one element (R272, R274) and what they leave; the partial write is charged to LW (R340). -/
def afterCopy (c : Core) (x : Entry) : Option Core :=
  let put := fun (d : HandleBits) (v : Nat) => some { c.lose (hBase d / 16) 7 2 with
    mem := writeLE c.mem (hBase d) ((hFormat d).width / 8) v
    full := setAdd c.full (hBase d / 16)
    engL := afterHead c.engL }
  match x.instr, x.handles with
  | .xfill .., [d] => if oneElement d then put d (x.scalars.getD 0 0 % 2 ^ (hFormat d).width) else none
  | .xcpy .., [d, h] =>
    if oneElement d && oneElement h && hFmt d == hFmt h && clean c (hBase h) ((hFormat h).width / 8) then
      put d (oneCode c.mem h) else none
  | _, _ => none

end Sys2Proof.Claims

/-! ## Results of the vector engine -/

namespace Sys2Proof.Claims
open Sys2Proof.Machine

/-- V may read the bytes at addresses through a handle: local, in no accumulator bank that M owns (R26), not poisoned, and
full where the handle's FEM waits (R29). -/
def vReads (c : Core) (own : BitVec 8) (h : HandleBits) (as : List Nat) : Bool :=
  as.all (fun a => decide (a < 0xA1000) && !setHas c.poison (a / 8) &&
    (decide (a < 0x80000 ∨ 0xA0000 ≤ a) || bitAt own.toNat ((a - 0x80000) / 0x4000) == 1) &&
    (hFem h == 0 || decide (0x80000 ≤ a) || setHas c.seenFull (a / 16)))

/-- V may write the bytes at addresses: in the scratchpad, or in an accumulator bank that it owns (R25, R26). -/
def vWrites (own : BitVec 8) (as : List Nat) : Bool :=
  as.all (fun a => decide (a < 0x80000) || (decide (a < 0xA0000) && bitAt own.toNat ((a - 0x80000) / 0x4000) == 1))

/-- The element of source k that stands for destination element n (R206, R229). -/
def sourceOf (x : Entry) (k n : Nat) : Nat :=
  let h := x.h k
  let d := x.h 0
  let i := fun (extent p : Nat) => if extent = 1 then 0 else p
  match x.instr with
  | .vbcast .. => 0
  | _ => i (hD0 h) (n % hD0 d) + hD0 h * (i (hD1 h) (n / hD0 d % hD1 d) + hD1 h * i (hD2 h) (n / hD0 d / hD1 d))

/-- The value and the integer of element m of a handle. -/
def valueAt (m : Mem) (h : HandleBits) (k : Nat) : Val := (hFormat h).value (readElem m h k)
def integerAt (m : Mem) (h : HandleBits) (k : Nat) : Int :=
  if hFmt h = 13 then readElem m h k else sx (readElem m h k) (hFormat h).width

/-- The scale of element m of a handle (R132); 1 without scales. -/
def scaleOf (m : Mem) (h : HandleBits) (k : Nat) : Val :=
  if hBlk h = 0 then .one else (hScaleFormat h).value (bytesAt m (hScaleAddr h k) (hScaleBytes h))

/-- The operands of destination element n in memory, with the broadcast scalar for a missing source (R209). -/
def operandsAt (m : Mem) (x : Entry) (n : Nat) : Operands :=
  { val := fun k => match x.handles[k]? with
      | some h => valueAt m h (sourceOf x k n)
      | none => Fmt.fp32.value (x.scalars.getD 0 0)
    int := fun k => match x.handles[k]? with
      | some h => integerAt m h (sourceOf x k n)
      | none => sx (x.scalars.getD 0 0) 32
    code := fun k => readElem m (x.h k) (sourceOf x k n)
    old := valueAt m (x.h 0) n
    scale := scaleOf m (x.h 1) (sourceOf x 1 n) }

/-- What a step leaves: memory, the conditions, the bits of VSTAT, and an entry pushed into a queue register. -/
structure Effects where
  mem : Mem
  flags : Nat
  stat : Nat
  push : Option (Nat × Nat)

/-- The effects of one element or row after those before it. -/
def Effects.and (a : Effects) (f : Mem → Mem) (flags stat : Nat) : Effects :=
  { mem := f a.mem, flags := a.flags ||| flags, stat := a.stat ||| stat, push := a.push }

/-- E of R202. -/
def lanes (x : Entry) : Nat :=
  let w := (x.handles.map hBits).foldl max 0
  if w = 32 then 64 else if w = 16 then 128 else 256

/-- The numbers of step s where each step takes e of n. -/
def stepOf (s e n : Nat) : List Nat := List.range' (s * e) (min e (n - s * e))

/-- Elements one after another, each reading memory as it stood before the step (R204). -/
def effectsOf (m : Mem) (ns : List Nat) (f : Nat → Option (Effects → Effects)) : Option Effects :=
  ns.foldl (fun (a : Option Effects) n => a.bind (fun e => (f n).map (fun g => g e))) (some ⟨m, 0, 0, none⟩)

/-- The reads of a plain cell for destination element n pass: its sources, the destination of VFMA and VMSEL.M, the scale of
VDQT; and so does its write. -/
def plainPasses (c : Core) (x : Entry) (n : Nat) : Bool :=
  let d := x.h 0
  (List.range (x.handles.length - 1)).all (fun i =>
    vReads c x.accown (x.h (i + 1)) (hElemAddrs (x.h (i + 1)) (sourceOf x (i + 1) n))) &&
  vWrites x.accown (hElemAddrs d n) &&
  (match x.instr with
   | .vfma .. => vReads c x.accown d (hElemAddrs d n)
   | .vmselM .. => vReads c x.accown d (hElemAddrs d n)
   | .vdqt .. => hBlk (x.h 1) == 0 ||
       vReads c x.accown (x.h 1) (List.range' (hScaleAddr (x.h 1) (sourceOf x 1 n)) (hScaleBytes (x.h 1)))
   | _ => true)

/-- The element that VGATH, VSHUF and VSCAT take by index element n (R228, R234, R235); none beyond the range that VGATH and
VSCAT check. -/
def indexed (c : Core) (x : Entry) (n : Nat) : Option Nat :=
  let v := integerAt c.mem (x.h 2) n
  let within := fun (h : HandleBits) => if 0 ≤ v ∧ v < (hD0 h * hD1 h * hD2 h : Nat) then some v.toNat else none
  match x.instr with
  | .vgath .. => within (x.h 1)
  | .vscat .. => within (x.h 0)
  | _ => some (n / lanes x * lanes x + (v % 2 ^ 32).toNat % lanes x)

/-- The exact sum of values with the specials of R231, and its condition. -/
def rowSum (xs : List Val) : Val × Nat :=
  let inf := fun (neg : Bool) => xs.any (fun v => v == .inf neg)
  if xs.any (·.isNan) then (.nan, 0)
  else if inf false && inf true then (.nan, 1)
  else if inf false then (.inf false, 0)
  else if inf true then (.inf true, 0)
  else
    let t := xs.foldl (fun a v => (a.add false v).1) .zero
    (if t.isZero then .fin (!xs.isEmpty && xs.all (·.sign)) 0 1 else t, 0)

/-- The greatest or least of values; NaN where one is NaN (R231). -/
def rowTop (least : Bool) (xs : List Val) : Val :=
  if xs.any (·.isNan) then .nan else xs.tail.foldl (pick least) (xs.headD .nan)

/-- A quotient by IEEE 754: DZ (2) for a finite value by zero, NV (1) for 0 / 0 and infinity by infinity. -/
def quotient (a b : Val) : Val × Nat :=
  match a, b with
  | .nan, _ => (.nan, 0)
  | _, .nan => (.nan, 0)
  | .inf p, .inf _ => let _ := p; (.nan, 1)
  | .inf p, .fin q _ _ => (.inf (xor p q), 0)
  | .fin p _ _, .inf q => (.fin (xor p q) 0 1, 0)
  | .fin p n d, .fin q k e =>
    if k ≠ 0 then (.fin (xor p q) (n * e) (d * k), 0) else if n = 0 then (.nan, 1) else (.inf (xor p q), 2)

/-- FP32 to nearest even: the value, with its conditions added to those before. -/
def near (v : Val × Nat) : Val × Nat :=
  let r := round .fp32 .rne false v.1
  (Fmt.fp32.value r.code, v.2 ||| r.flags)

/-- A product with its condition. -/
def times (a b : Val) : Val × Nat := let r := a.mul b; (r.1, bit r.2)

/-- The outputs of VNORM for a row (R238), each with its conditions, and the conditions of the row (log 86). -/
def normed (eps : Val) (centre : Bool) (xs gs : List Val) : List (Val × Nat) × Nat :=
  if xs.any (fun v => v.isNan || v.isInf) then (xs.map (fun _ => (.nan, 0)), if xs.any (·.isNan) then 0 else 1)
  else
    let mean := fun (l : List Val) => ((rowSum l).1.mul (.fin false 1 xs.length)).1
    let mu := if centre then near (mean xs, 0) else (.zero, 0)
    let v := near (((mean (xs.map (fun v => (v.mul v).1))).add false (mu.1.mul mu.1).1.neg).1, 0)
    let sum := (if v.1.sign then Val.zero else v.1).add false eps
    let root := near (sum.1, bit sum.2)
    let q := near (TOp.rsq.apply root.1)
    ((xs.zip gs).map (fun p =>
      let a := times (p.1.add false mu.1.neg).1 q.1
      let b := times a.1 p.2
      (b.1, a.2 ||| b.2)), mu.2 ||| v.2 ||| root.2 ||| q.2)

/-- The outputs of VSMAX for a row (R239), each with its conditions, the conditions of the row, and SMZ. -/
def softmaxed (scale : Val) (xs : List Val) : List (Val × Nat) × Nat × Bool :=
  let m := rowTop false xs
  if m.isNan then (xs.map (fun _ => (.nan, 0)), 0, false)
  else if m == .inf true then (xs.map (fun _ => (.zero, 0)), 0, true)
  else
    let es := xs.map (fun v =>
      let a := v.add false m.neg
      let b := times a.1 scale
      let t := round .fp32 .rne false b.1
      let y := TOp.exp2.form t.code
      (y.1, bit a.2 ||| b.2 ||| t.flags ||| y.2))
    let s := near (rowSum (es.map (·.1)))
    (es.map (fun e => let o := quotient e.1 s.1; (o.1, e.2 ||| o.2)), s.2, false)

/-- The scale of a block of VQNT (R224): its code, its value where the block has one, and the conditions. -/
def blockScale (f sf : Fmt) (xs : List Val) : Nat × Option Val × Nat :=
  if xs.any (fun v => v.isNan || v.isInf) then
    ((match sf with
      | .e8f2 => 0x3FC
      | .bf16 => 0x7FC0
      | _ => 0x7FC00000), none, if xs.any (·.isNan) then 0 else 1)
  else
    let top := rowTop false (xs.map (·.abs))
    let q := match f with
      | .int8 => Val.ofInt 127
      | .int4 => Val.ofInt 7
      | _ => f.value f.maxCode
    let r := if top.isZero then round sf .rne false .one else round sf .rup false (quotient top q).1
    (r.code, some (sf.value r.code), if top.isZero then 0 else r.flags)

/-- Block j of row r of VQNT (R224): its scale, then its elements. -/
def blockEffects (c : Core) (x : Entry) (r j : Nat) : Option (Effects → Effects) :=
  let d := x.h 0
  let first := r * hD0 d + j * hBlock d
  let ns := List.range' first (min (hBlock d) (hD0 d - j * hBlock d))
  let va := List.range' (hScaleAddr d first) (hScaleBytes d)
  let xs := ns.map (fun n => valueAt c.mem (x.h 1) (sourceOf x 1 n))
  let sc := blockScale (hFormat d) (hScaleFormat d) xs
  if ns.all (fun n => plainPasses c x n) && vWrites x.accown va then
    some (fun e => (ns.zip xs).foldl (fun (e : Effects) (q : Nat × Val) =>
        let v := match sc.2.1 with
          | none => (Val.nan, 0)
          | some s => quotient q.2 s
        let y := round (hFormat d) (capturedMode x (indexOf x q.1)) true v.1
        e.and (fun m => writeElem m d q.1 y.code) (v.2 ||| y.flags) 0)
      (e.and (fun m => writeLE m (hScaleAddr d first) (hScaleBytes d) sc.1) sc.2.2 0))
  else none

/-- The source of a row cell: ha, which under .Q stands alone. -/
def rowHandleOf (x : Entry) : HandleBits := if x.handles.length = 1 then x.h 0 else x.h 1

/-- The reads and writes of row r of a row cell pass. -/
def rowPasses (c : Core) (x : Entry) (r : Nat) : Bool :=
  let h := rowHandleOf x
  let one := match x.instr with
    | .vrsum .. => true | .vrmax .. => true | .vrmin .. => true | _ => false
  (List.range (hD0 h)).all (fun i =>
    vReads c x.accown h (hElemAddrs h (i + hD0 h * r)) &&
    (match x.instr with
     | .vnorm .. => vReads c x.accown (x.h 2) (hElemAddrs (x.h 2) i)
     | _ => true) &&
    (decide (x.handles.length = 1) || vWrites x.accown (hElemAddrs (x.h 0) (if one then r else i + hD0 h * r))))

/-- Row r of a row cell (R231 to R233, R238, R239). -/
def rowEffects (c : Core) (x : Entry) (r : Nat) : Option (Effects → Effects) :=
  let h := rowHandleOf x
  let d := x.h 0
  let xs := (List.range (hD0 h)).map (fun i => valueAt c.mem h (i + hD0 h * r))
  let put := fun (n : Nat) (v : Val × Nat) (e : Effects) =>
    let y := round (hFormat d) (capturedMode x n) false v.1
    e.and (fun m => writeElem m d n y.code) (v.2 ||| y.flags) 0
  let row := fun (vs : List (Val × Nat)) (flags : Nat) (stat : Nat) => some (fun (e : Effects) =>
    ((List.range vs.length).zip vs).foldl (fun (e : Effects) (q : Nat × Val × Nat) => put (hD0 h * r + q.1) q.2 e)
      (e.and id flags stat))
  let push := fun (n : BitVec 2) (v : Val × Nat) =>
    let integer := [8, 9, 12, 13, 14].contains (hFmt h)
    let y := round (if integer then .int32 else .fp32) (capturedMode x r) false v.1
    if (c.queue n.toNat).length < 8 then
      some (fun (e : Effects) => { e.and id (v.2 ||| y.flags) 0 with push := some (n.toNat, y.code) })
    else none
  if !rowPasses c x r then none
  else match x.instr with
  | .vrsum .. => some (put r (rowSum xs))
  | .vrmax .. => some (put r (rowTop false xs, 0))
  | .vrmin .. => some (put r (rowTop true xs, 0))
  | .vrsumQ _ n _ => push n (rowSum xs)
  | .vrmaxQ _ n _ => push n (rowTop false xs, 0)
  | .vrminQ _ n _ => push n (rowTop true xs, 0)
  | .vscan _ _ _ excl =>
    row ((List.range xs.length).map (fun i =>
      if excl = 1 then (if i = 0 then (.zero, 0) else rowSum (xs.take i)) else rowSum (xs.take (i + 1)))) 0 0
  | .vnorm .. =>
    let gs := (List.range (hD0 h)).map (fun i => valueAt c.mem (x.h 2) i)
    let o := normed (Fmt.fp32.value (x.scalars.getD 0 0)) (x.scalars.getD 1 0 % 2 == 1) xs gs
    row o.1 o.2 0
  | .vsmax .. =>
    let o := softmaxed (match x.scalars with
      | [] => .one
      | v :: _ => Fmt.fp32.value v) xs
    row o.1 o.2.1 (if o.2.2 then 4 else 0)
  | _ => none

/-- The effects of step s of a vector instruction whose accesses all pass, by its steps (R202, R224, R227, R228, R234, R235):
the cells by elements, VPERMB by bytes, VQNT by blocks, and the row cells at the last step of each row (R204). -/
def vectored (c : Core) (x : Entry) (s : Nat) : Option Effects :=
  let d := x.h 0
  let e := lanes x
  let size := fun (h : HandleBits) => hD0 h * hD1 h * hD2 h
  let by' := fun (n : Nat) (f : Nat → Option (Effects → Effects)) => effectsOf c.mem (stepOf s e n) f
  let move := fun (n : Nat) (ok : Bool) (v : Nat) =>
    if ok && vWrites x.accown (hElemAddrs d n) then some (fun (a : Effects) => a.and (fun m => writeElem m d n v) 0 0) else none
  let reads := fun (k n : Nat) => vReads c x.accown (x.h k) (hElemAddrs (x.h k) n)
  let rows := fun (_ : Unit) =>
    let k := (hD0 (rowHandleOf x) + e - 1) / e
    if (s + 1) % k = 0 then effectsOf c.mem [s / k] (rowEffects c x) else some ⟨c.mem, 0, 0, none⟩
  match x.instr, x.handles.length with
  | .vpermb .., 3 =>
    let n := size d * hBits d / 8
    let t := size (x.h 1) * hBits (x.h 1) / 8
    effectsOf c.mem (stepOf s 256 n) (fun j =>
      let i := bytesAt c.mem (hByteAddr (x.h 2) j) 1
      if vReads c x.accown (x.h 2) [hByteAddr (x.h 2) j] && vWrites x.accown [hByteAddr d j] &&
          (decide (t ≤ i) || vReads c x.accown (x.h 1) [hByteAddr (x.h 1) i]) then
        some (fun a => a.and (fun m => writeLE m (hByteAddr d j) 1
          (if i < t then bytesAt c.mem (hByteAddr (x.h 1) i) 1 else 0)) 0 0)
      else none)
  | .vshuf .., 3 => by' (size d) (fun n => (indexed c x n).bind (fun v =>
      let inside := decide (v < size (x.h 1))
      move n (reads 2 n && (!inside || reads 1 v)) (if inside then readElem c.mem (x.h 1) v else 0)))
  | .vgath .., 3 => by' (size d) (fun n => (indexed c x n).bind (fun v =>
      move n (reads 2 n && reads 1 v) (readElem c.mem (x.h 1) v)))
  | .vscat .., 3 => by' (size (x.h 1)) (fun n => (indexed c x n).bind (fun v =>
      move v (reads 2 n && reads 1 n) (readElem c.mem (x.h 1) n)))
  | .vqnt .., 2 =>
    let b := hBlock d
    let per := max 1 (e / b)
    let blocks := (hD0 d + b - 1) / b
    let k := (blocks + per - 1) / per
    if b = 0 then none else effectsOf c.mem (stepOf (s % k) per blocks) (blockEffects c x (s / k))
  | .vrsum .., 2 => rows ()
  | .vrmax .., 2 => rows ()
  | .vrmin .., 2 => rows ()
  | .vrsumQ .., 1 => rows ()
  | .vrmaxQ .., 1 => rows ()
  | .vrminQ .., 1 => rows ()
  | .vscan .., 2 => rows ()
  | .vnorm .., 3 => rows ()
  | .vsmax .., 2 => rows ()
  | _, _ =>
    by' (size d) (fun n =>
      if plainPasses c x n then (cellResult x n (operandsAt c.mem x n)).map (fun r a =>
        a.and (fun m => match r.1 with
          | some v => writeElem m d n v
          | none => m) r.2.1 r.2.2)
      else none)

/-- A vector instruction stands at the head of V with steps to take, and has met no poison; no condition is enabled (R213,
R214). -/
def vectorGoes (c : Core) (x : Entry) : Bool :=
  headReady c c.engV x && c.vmet.isNone && c.vrows.isEmpty && bits x.fpctl.toNat 8 4 == 0 && !x.handles.isEmpty &&
  decide (c.engV.mpc.toNat < entrySteps x)

/-- The element of the source that XCPY or XTRN gives to destination element n (R272, R273). -/
def copiedFrom (x : Entry) (n : Nat) : Nat :=
  let d := x.h 0
  let h := x.h 1
  match x.instr with
  | .xtrn .. => n / hD0 d % hD1 d + hD0 h * (n % hD0 d + hD1 h * (n / hD0 d / hD1 d))
  | _ => n

/-- Memory after step s of a local copy whose accesses pass (R271 to R274): of the elements whose first bytes lie in
destination bytes 512 s to 512 s + 511, each holds the pattern of its source element, or of the fill. L is not checked against
the owners of banks (R26). -/
def copied (c : Core) (x : Entry) (s : Nat) : Option Mem :=
  let d := x.h 0
  let h := x.h 1
  let b := hBits d
  let first := (4096 * s + b - 1) / b
  let last := min ((4096 * (s + 1) + b - 1) / b) (hD0 d * hD1 d * hD2 d)
  let ns := List.range' first (last - first)
  let writes := ns.all (fun n => (hElemAddrs d n).all (fun a => decide (a < 0xA0000)))
  let reads := ns.all (fun n => (hElemAddrs h (copiedFrom x n)).all (fun a => decide (a < 0xA1000) && !setHas c.poison (a / 8) &&
    (hFem h == 0 || decide (0x80000 ≤ a) || setHas c.seenFull (a / 16))))
  let put := fun (f : Nat → Nat) => ns.foldl (fun m n => writeElem m d n (f n)) c.mem
  match x.instr with
  | .xfill .. => if writes then some (put (fun _ => x.scalars.getD 0 0 % 2 ^ b)) else none
  | .xcpy .. => if writes && reads then some (put (fun n => readElem c.mem h (copiedFrom x n))) else none
  | .xtrn .. => if writes && reads then some (put (fun n => readElem c.mem h (copiedFrom x n))) else none
  | _ => none

/-- A local copy stands at the head of L with steps to take, and has met no poison. -/
def copyGoes (c : Core) (x : Entry) : Bool :=
  headReady c c.engL x && c.lmet.isNone && decide (c.engL.mpc.toNat < entrySteps x)

end Sys2Proof.Claims

/-! ## Results of the matrix engine -/

namespace Sys2Proof.Claims
open Sys2Proof.Machine

/-- The keys of a table rise. -/
def tabWf (t : Table) : Bool := setWfFrom 0 (t.map (fun (q : Nat × Nat) => q.1))

/-- M may make plain reads of bytes: they are mapped, in no accumulator bank that V owns (R26), and not poisoned. -/
def mReads (c : Core) (own : BitVec 8) (as : List Nat) : Bool :=
  as.all (fun a => decide (a < 0xA1000) && !setHas c.poison (a / 8) &&
    (decide (a < 0x80000 ∨ 0xA0000 ≤ a) || bitAt own.toNat ((a - 0x80000) / 0x4000) == 0))

/-- M may write bytes: in the scratchpad, or in an accumulator bank that it owns (R25, R26). -/
def mWrites (own : BitVec 8) (as : List Nat) : Bool :=
  as.all (fun a => decide (a < 0x80000) ||
    (decide (a < 0xA0000) && bitAt own.toNat ((a - 0x80000) / 0x4000) == 0))

/-- M may read elements of a handle, with the scales of their blocks (R132): bytes as above, and every granule full
where the handle's FEM waits (R29). -/
def mElements (c : Core) (x : Entry) (ns : List Nat) : Bool :=
  let h := x.handles.getD 0 0
  let as := ns.flatMap (fun n => hElemAddrs h n ++
    (if hBlk h = 0 then [] else (List.range (hScaleBytes h)).map (fun j => hScaleAddr h n + j)))
  mReads c x.accown as && (hFem h == 0 || as.all (fun a => decide (0x80000 ≤ a) || setHas c.seenFull (a / 16)))

/-- The address of element (row, col) of the accumulators, over all eight banks (R245). -/
def tileAt (row col : Nat) : Nat := 0x80000 + 256 * row + 4 * col

/-- M may read whole tile rows, and write them. -/
def mRows (c : Core) (x : Entry) (read : Bool) (rows : List Nat) : Bool :=
  let as := rows.flatMap (fun r => List.range' (tileAt r 0) 256)
  rows.all (fun r => decide (r < 512)) && mWrites x.accown as && (!read || mReads c x.accown as)

/-- The exact product of two codes (R123, R135, R138): integers are multiplied, logarithms added, other values
multiplied. -/
def product (fx fy : Fmt) (x y : Nat) : Val :=
  if (fx.lns?).isSome ∧ (fy.lns?).isSome then (prodOf fx fy x y).1
  else if fx.isInt ∧ fy.isInt then .ofInt (fx.intOf x * fy.intOf y)
  else ((fx.value x).mul (fy.value y)).1

/-- The profile's group length and window (R134). -/
def profileOf (np : Nat) : Nat × Nat :=
  match np with
  | 1 => (32, 48)
  | 2 => (16, 32)
  | 3 => (256, 0)
  | _ => (64, 64)

/-- The products of a pass in groups (R135): a group ends at every multiple of the profile's length, and at every block
boundary of either operand; all of these are powers of two up to 256, so that the least one parts the pass. -/
def groupsBy (np ba bw : Nat) (ps : List α) : List (List α) :=
  let n := ([ba, bw].filter (· ≠ 0)).foldl min (profileOf np).1
  (List.range ((ps.length + n - 1) / n)).map (fun g => (ps.drop (n * g)).take n)

/-- n / d times 2^k, truncated. -/
def shiftFloor (n d : Nat) (k : Int) : Nat := if 0 ≤ k then n * 2 ^ k.toNat / d else n / (d * 2 ^ (-k).toNat)

/-- FP32 to nearest even, as a value. -/
def near32 (v : Val) : Val := Fmt.fp32.value (round .fp32 .rne false v).code

/-- The sum G of a group (R135): NaN and infinities first, then the products cut to the window below the greatest one's
binade, added exactly, and rounded to FP32. -/
def windowSum (w : Nat) (ps : List Val) : Val :=
  let inf := fun (neg : Bool) => ps.any (fun p => p == .inf neg)
  if ps.any (·.isNan) || (inf false && inf true) then .nan
  else if inf false then .inf false
  else if inf true then .inf true
  else
    let parts := ps.filterMap (fun p => match p with
      | .fin s n d => if n = 0 then none else some (s, n, d)
      | _ => none)
    match parts with
    | [] => .fin (ps.all (·.sign)) 0 1
    | q :: t =>
      let e := t.foldl (fun m (r : Bool × Nat × Nat) => max m (floorLog2 r.2.1 r.2.2)) (floorLog2 q.2.1 q.2.2)
      let sum := (parts.map (fun r =>
        let k : Int := shiftFloor r.2.1 r.2.2 ((w : Int) - 1 - e)
        if r.1 then -k else k)).sum
      if sum = 0 then .zero else near32 (.dyadic (decide (sum < 0)) sum.natAbs (e - w + 1))

/-- A group's sum scaled by the scales of its blocks (R133). -/
def scaledSum (g : Val) (sc : Option (Val × Val)) : Val :=
  match sc with
  | none => g
  | some (a, b) =>
    let s := near32 (a.mul b).1
    if g.isNan || s.isNan then .nan
    else if g.isZero then .fin (xor g.sign (xor a.sign b.sign)) 0 1
    else near32 (g.mul s).1

/-- One FP32 accumulation (R136, R137). -/
def addTo (acc : Nat) (v : Val) : Nat := (round .fp32 .rne false ((Fmt.fp32.value acc).add false v).1).code

/-- A tile element after one pass (R134 to R138): from `start`, over the products, with the scales by k where an operand
is scaled. Integer pairs saturate to INT32 at each group, under profile 3 at each product. -/
def passResult (np : Nat) (int : Bool) (ba bw : Nat) (scales : Option (Nat → Val × Val)) (ps : List Val) (start : Nat) :
    Nat :=
  let ks := groupsBy np ba bw (List.range ps.length)
  let group := fun (ns : List Nat) => ns.map (fun k => ps.getD k .zero)
  if int then
    (if np = 3 then ps.map (fun p => [p]) else ks.map group).foldl (fun acc g =>
      let t : Int := sx acc 32 + (g.map Val.toInt).sum
      pat32 (min (max t (-(2 ^ 31 : Int))) (2 ^ 31 - 1))) start
  else if np = 3 ∧ scales.isNone then ps.foldl addTo start
  else ks.foldl (fun acc ns =>
    let g := if np = 3 then Fmt.fp32.value ((group ns).foldl addTo 0x80000000) else windowSum (profileOf np).2 (group ns)
    addTo acc (scaledSum g (scales.map (fun f => f (ns.headD 0))))) start

/-- The K extent of a pass by format (R258). -/
def passMax (f : Nat) : Nat := if f = 0 then 16 else if f ≤ 2 then 64 else if f ≤ 4 ∨ f = 8 then 128 else 256

/-- Tile element (row, c) of MMS and MMSZ for row r of the handle (R258): the plane's weights (R242) and scales
(R255, R257). -/
def streamValue (c : Core) (h : HandleBits) (np : Nat) (fresh : Bool) (row r col : Nat) : Nat :=
  let w := c.matrix.active
  let fw := fmtOf w.wfmt
  let int := (hFormat h).isInt && fw.isInt && hBlk h == 0 && w.block == 0
  let elem := fun k => k + hD0 h * r
  passResult np int (hBlock h) w.block
    (if hBlk h = 0 ∧ w.block = 0 then none else some (fun k => (scaleAt c.mem h (elem k), w.scale k col)))
    ((List.range (hD0 h)).map (fun k => product (hFormat h) fw (readElem c.mem h (elem k)) (w.weight k col)))
    (if fresh then (if int then 0 else 0x80000000) else bytesAt c.mem (tileAt row col) 4)

/-- The writes of 32-bit words. -/
def putWords (m : Mem) (ws : List (Nat × Nat)) : Mem := ws.foldl (fun m q => writeLE m q.1 4 q.2) m

/-- Memory after step s of a stream instruction at the head of M whose accesses all pass (R258, R260 to R263): the tile
elements, or for MRD the elements of its handle, hold their new values. -/
def streamed (c : Core) (x : Entry) (s : Nat) : Option Mem :=
  let h := x.handles.getD 0 0
  let base := 64 * c.matrix.mem.toNat
  let rows := fun (n : Nat) => List.range' (8 * s) (min 8 (n - 8 * s))
  let cols := List.range 64
  let tile := fun (n first : Nat) (read : Bool) (elems : Nat → List Nat) (v : Nat → Nat → Nat → Option Nat) =>
    if 8 * s < n ∧ mRows c x read ((rows n).map (first + ·)) = true ∧ mElements c x ((rows n).flatMap elems) = true then
      some (putWords c.mem ((rows n).flatMap (fun r => cols.filterMap (fun k =>
        (v r (first + r) k).map (fun q => (tileAt (first + r) k, q))))))
    else none
  let row := fun (r : Nat) => (List.range (hD0 h)).map (· + hD0 h * r)
  let stream := fun (fresh : Bool) (k : BitVec 3) (np : BitVec 3) =>
    let first := 64 * k.toNat + x.scalars.getD 0 0 % 256
    if c.matrix.active.state = .loaded ∧ c.matrix.active.mark = .none ∧ 1 ≤ np.toNat ∧ np.toNat ≤ 4 ∧ first + hD1 h ≤ 512 ∧
        hD0 h ≤ min (passMax (hFmt h)) (passMax c.matrix.active.wfmt) ∧
        [0, 16, 32, 64, 128, 256].contains c.matrix.active.block then
      tile (hD1 h) first (!fresh) row (fun r a j => some (streamValue c h np.toNat fresh a r j))
    else none
  let times := fun (a j e : Nat) => (round .fp32 .rne false
    ((Fmt.fp32.value (bytesAt c.mem (tileAt a j) 4)).mul ((hFormat h).value (readElem c.mem h e))).1).code
  if x.handles.any (fun h => hD0 h * hD1 h * hD2 h == 0) then none
  else match x.instr with
  | .mms _ _ k p _ => stream false k p
  | .mmsz _ _ k p _ => stream true k p
  | .msclC _ _ k =>
    if 64 * k.toNat + hD1 h ≤ 512 then
      tile (hD1 h) (64 * k.toNat) true
        (fun r => (cols.filter (fun j => decide (base + j < hD0 h))).map (fun j => base + j + hD0 h * r))
        (fun r a j => if base + j < hD0 h then some (times a j (base + j + hD0 h * r)) else none)
    else none
  | .msclR _ _ k =>
    if 64 * k.toNat + hD0 h ≤ 512 then
      tile (hD0 h) (64 * k.toNat) true (fun r => [r]) (fun r a j => some (times a j r))
    else none
  | .mza _ k n => tile (64 * (n.toNat + 1)) (64 * k.toNat) false (fun _ => []) (fun _ _ _ => some 0)
  | .mwr _ _ k i =>
    tile (hD1 h) (64 * k.toNat) false row (fun r _ j =>
      if j < hD0 h then some (round (if i = 1 then .int32 else .fp32) .rne false
        ((hFormat h).value (readElem c.mem h (j + hD0 h * r)))).code
      else none)
  | .mrd _ _ k i d =>
    let ns := (rows (hD1 h)).flatMap row
    if decide (8 * s < hD1 h) && mRows c x true ((rows (hD1 h)).map (64 * k.toNat + ·)) && mWrites x.accown (ns.flatMap (hElemAddrs h)) &&
        decide (hD0 h ≤ 64) then
      some (ns.foldl (fun m n =>
        let v := (if i = 1 then Fmt.int32 else Fmt.fp32).value (bytesAt c.mem (tileAt (64 * k.toNat + n / hD0 h) (n % hD0 h)) 4)
        let mode : Mode := if d = 1 then .rtz else if d = 2 then .sr (hash x.seed n) else .rne
        writeElem m h n (round (hFormat h) mode (d == 3) v).code) c.mem)
    else none
  | _ => none

/-- What a plane holds where it is loaded or scaled: the weight and the scale of (k, column). -/
structure PlaneView where
  weight : Nat → Nat → Nat
  scale : Nat → Nat → Val

/-- A plane as the products read it (R242, R255, R257). -/
def planeView (p : Plane) : PlaneView := ⟨p.weight, p.scale⟩

/-- Step s of MWL (R255) whose reads pass: the columns that it loads, and what each then holds. Row 64 MEM + c of the
handle goes to column c; a column beyond the handle is zero. -/
def columnsLoaded (c : Core) (x : Entry) (s : Nat) : Option (List Nat × PlaneView) :=
  let h := x.handles.getD 0 0
  let p := c.matrix.shadow
  let js := List.range' (8 * s) 8
  let at' := fun (k j : Nat) => k + hD0 h * (64 * c.matrix.mem.toNat + j)
  let held := js.filter (fun j => decide (64 * c.matrix.mem.toNat + j < hD1 h))
  match x.instr with
  | .mwl .. =>
    if 8 ≤ s ∨ hD0 h * hD1 h * hD2 h = 0 ∨ passMax (hFmt h) < hD0 h ∨ 11 < hFmt h then none
    else if s ≠ 0 ∧ !(p.kw == hD0 h && p.wfmt == hFmt h && p.block == hBlock h && p.sfmt == hSfmt h &&
        tabWf p.weights && tabWf p.scales) then none
    else if !mElements c x (held.flatMap (fun j => (List.range (hD0 h)).map (fun k => at' k j))) then none
    else some (js, {
      weight := fun k j => if k < hD0 h ∧ held.contains j then readElem c.mem h (at' k j)
        else (round (hFormat h) .rne false .zero).code
      scale := fun k j => if hBlk h = 0 then .one
        else if k < hD0 h ∧ held.contains j then
          (hScaleFormat h).value (bytesAt c.mem (hScaleAddr h (at' k j)) (hScaleBytes h))
        else (hScaleFormat h).value (round (hScaleFormat h) .rne false .one).code })
  | _ => none

/-- MSCL.K (R257) whose reads pass: each column's scale, 1 beyond the handle. -/
def columnScales (c : Core) (x : Entry) : Option (Nat → Val) :=
  let h := x.handles.getD 0 0
  let base := 64 * c.matrix.mem.toNat
  let n := hD0 h * hD1 h * hD2 h
  let held := (List.range 64).filter (fun j => decide (n ≠ 0 ∧ base + j < hD0 h))
  match x.instr with
  | .msclK .. =>
    if c.matrix.shadow.state = .loaded ∧ hFmt h ≤ 2 ∧ hBlk h = 0 ∧ mElements c x (held.map (base + ·)) = true then
      some (fun j => if held.contains j then (hFormat h).value (readElem c.mem h (base + j))
        else (hFormat h).value (round (hFormat h) .rne false .one).code)
    else none
  | _ => none

end Sys2Proof.Claims

/-! ## Traps -/

namespace Sys2Proof.Claims
open Sys2Proof.Machine

/-- A precise trap has been taken (R194, R195): CODE and SUB in CAUSE, EPC at the instruction, ETVAL, the old STATUS
in ESTATUS, supervisor mode, the PC at EVEC, four core cycles (R176). Nothing else of the device changes but for the
trace FIFO (R458). -/
def trapTaken (s : State) (code sub etval : Nat) (t : State) : Bool :=
  let c := s.core
  t == { s with core := { c with
    pc := BitVec.ofNat 16 (c.csr.evec.toNat % 2 ^ 16 / 4 * 4)
    held := none
    csr := { c.csr with
      priv := true
      estatus := c.status s.det
      cause := BitVec.ofNat 32 (code + 2 ^ 13 * sub)
      epc := c.pc.zeroExtend 32
      etval := BitVec.ofNat 32 etval
      cycle := c.csr.cycle + 4 }
    dbg := { c.dbg with fifo := t.core.dbg.fifo, dropped := t.core.dbg.dropped } } }

/-- The first poisoned 8-byte word among n bytes from a, as the POISON trap of R160 gives it. -/
def poisonAt (c : Core) (a n : Nat) : Option (Nat × Nat × Nat) :=
  ((List.range n).find? (fun k => setHas c.poison ((a + k) / 8))).map (fun k => (6, 0, (a + k) / 8 * 8))

/-- The precise trap (CODE, SUB, ETVAL) of a load (R160, R161): ALIGN, PARAM, FEWAIT where no queued instruction
writes the first such granule (R31), POISON, in this order. -/
def loadTrap (c : Core) (f : LoadForm) : Option (Nat × Nat × Nat) :=
  let empties := (granules f.addr f.size).filter (fun g => !setHas c.seenFull g)
  if f.addr % f.size ≠ 0 then some (9, 0, f.addr)
  else if 0xA1000 ≤ f.addr then some (9, 1, f.addr)
  else if 0xA0000 ≤ f.addr ∧ c.csr.priv = false ∧ c.csr.pwin = 0 then some (5, 0, f.addr)
  else if f.qual ≠ 0 ∧ empties ≠ [] then
    if c.csr.phase.toNat % 2 = 0 then
      ((empties.find? (fun g => (c.writers g).isEmpty)).map (fun g => (7, 0, 16 * g)))
    else none
  else poisonAt c f.addr (boundedRead c f.addr f.size)

/-- The precise trap of LDP (R164). -/
def paramTrap (c : Core) (f : LoadForm) : Option (Nat × Nat × Nat) :=
  if f.addr % f.size ≠ 0 ∧ (4096 ≤ f.addr ∨ f.addr + f.size ≤ 4096) then some (9, 0, f.addr)
  else if c.csr.priv = false ∧ c.csr.pwin = 0 then some (5, 0, f.addr)
  else poisonAt c (0xA0000 + f.addr) (paramBytes c f)

/-- The precise trap of a store (R160, R162): ALIGN, PARAM, FEWAIT at the first full granule of ST.E, POISON where a
store of fewer than 8 bytes would merge. -/
def storeTrap (c : Core) (f : StoreForm) : Option (Nat × Nat × Nat) :=
  if f.addr % f.size ≠ 0 then some (9, 0, f.addr)
  else if 0xA1000 ≤ f.addr then some (9, 1, f.addr)
  else if 0xA0000 ≤ f.addr ∧ c.csr.priv = false then some (5, 1, f.addr)
  else if f.empty ∧ allEmpty c f.addr f.size = false then
    if 0x80000 ≤ f.addr then some (7, 1, f.addr / 16 * 16)
    else ((granules f.addr f.size).find? (fun g => setHas c.full g)).map (fun g => (7, 1, 16 * g))
  else if f.size < 8 then poisonAt c f.addr f.size
  else none

/-- The precise traps of the granule cells (R166): ALIGN. -/
def granuleTrap (i : Instr) (c : Core) : Option (Nat × Nat × Nat) :=
  let range := fun (d a : BitVec 6) (o : BitVec 7) (h : Hdr) =>
    let e := address c h a o 16
    let n := (c.reg d.toNat).toNat
    if e % 16 ≠ 0 then some (9, 0, e)
    else if n ≠ 0 ∧ 0x80000 < e + 16 * n then some (9, 1, max e 0x80000)
    else none
  match i with
  | .feq h _ a o =>
    let e := address c h a o 16
    if e % 16 ≠ 0 then some (9, 0, e) else if 0xA1000 ≤ e then some (9, 1, e) else none
  | .feset h d a o => range d a o h
  | .feclr h d a o => range d a o h
  | _ => none

/-- The precise traps of class 0x3. -/
def memoryTrap (i : Instr) (c : Core) : Option (Nat × Nat × Nat) :=
  ((loadForm i c).bind (loadTrap c)).or (((paramForm i c).bind (paramTrap c)).or
    (((storeForm i c).bind (storeTrap c)).or (granuleTrap i c)))

/-- The precise traps of the control cells (R171, R172) and of QPOP (R183) and LEND (R186). -/
def controlTrap (i : Instr) (c : Core) : Option (Nat × Nat × Nat) :=
  let jump := fun (a : BitVec 6) (o : BitVec 15) =>
    let t := ((((c.reg a.toNat).toNat : Int) + sx o.toNat 15 * 4) % 2 ^ 16).toNat
    if t % 4 ≠ 0 then some (9, 0, t) else none
  let deep := if 4 ≤ c.csr.lpdep.toNat then some (1, 5, main i) else none
  let lend := fun (n : BitVec 3) (own : Nat) (lose : Eng) =>
    if bitAt c.csr.accown.toNat n.toNat ≠ own ∧ c.targetsBank lose n.toNat = true then some (1, 7, main i) else none
  match i with
  | .jr _ a o => jump a o
  | .jrl _ a o => jump a o
  | .loop _ _ _ => deep
  | .loopi _ _ _ => deep
  | .qpop _ _ n => if c.queue n.toNat = [] ∧ c.queueTargeted n.toNat = false then some (8, n.toNat, n.toNat) else none
  | .lendM _ n => lend n 0 .V
  | .lendV _ n => lend n 1 .M
  | _ => none

/-- The task's context permits debug (R46, R381). -/
def debugAllowed (s : State) : Bool :=
  match s.core.task with
  | some t => bits (s.dist.contexts[t.ctx]?.getD 0).toNat 2 2 == 1
  | none => false

/-- The privilege traps (R43, R44, R46, R189, R199): of ERET, and of the first CSR of a pair that refuses. -/
def privilegeTrap (i : Instr) (s : State) : Option (Nat × Nat × Nat) :=
  let c := s.core
  let read := fun (k : Nat) => if c.csr.priv = false ∧ 0x100 ≤ k then some (2, 0, k) else none
  let write := fun (k : Nat) =>
    if c.csr.priv then (if k = 4 ∧ c.csr.supok = false then some (2, 2, k) else none)
    else if userWrites true k = false then some (2, 0, k)
    else if userWrites (debugAllowed s) k = false then some (2, 3, k)
    else none
  let pair := fun (f : Nat → Option (Nat × Nat × Nat)) (w : BitVec 1) (k : BitVec 12) =>
    (f k.toNat).or (if w = 0 then none else f (k.toNat + 1))
  match i with
  | .eret _ => if c.csr.priv then none else some (2, 1, main i)
  | .csrr _ w _ k => pair read w k
  | .csrw _ w _ k => pair write w k
  | .csrs _ w _ k => pair write w k
  | .csrc _ w _ k => pair write w k
  | _ => none

/-- The phase traps (R54): SUB 0 for an exchange instruction in compute, SUB 1 for V, M, L and ITER in an exchange
block. -/
def phaseTrap (i : Instr) (c : Core) : Option (Nat × Nat × Nat) :=
  let odd := c.csr.phase.toNat % 2 == 1
  let engine := (vectorForm i c).isSome || (matrixForm i c).isSome || (copyForm i c).isSome
  let exchange := (xferForm i c).isSome || (waitForm i c).isSome
  let iter := match i with
    | .iter _ => true
    | _ => false
  if (engine || iter) && odd then some (3, 1, main i)
  else if exchange && !odd then some (3, 0, main i)
  else none

/-- The cells whose meaning runs under a guard and token waits and checks nothing before them. -/
def plainCell (i : Instr) (c : Core) : Bool :=
  (arithResult i c).isSome || (mulDivResult i c).isSome || (bitResult i c).isSome || (truth i c).isSome ||
  (fpResult i c).isSome || (loadForm i c).isSome || (paramForm i c).isSome || (storeForm i c).isSome ||
  (match i with
   | .feq .. => true | .feset .. => true | .feclr .. => true
   | .br .. => true | .brl .. => true | .jr .. => true | .jrl .. => true | .loop .. => true | .loopi .. => true
   | .nop .. => true | .svc .. => true | .qpop .. => true | .qstat .. => true | .rng .. => true
   | .lendM .. => true | .lendV .. => true
   | _ => false)

/-- No engine is held at a full queue register, so that none is stuck (R36, R185). -/
def flowing (c : Core) : Bool :=
  [Eng.V, Eng.M, Eng.L, Eng.E].all (fun e =>
    match (c.eng e).pushing with
    | none => true
    | some (n, _) => decide ((c.queue n).length < 8))

/-- The engine an engine instruction goes to. -/
def engineFor (i : Instr) (c : Core) : Option Eng :=
  if (vectorForm i c).isSome then some .V
  else if (matrixForm i c).isSome then some .M
  else if (copyForm i c).isSome then some .L
  else if (xferForm i c).isSome || (waitForm i c).isSome then some .E
  else none

/-- An engine instruction reaches its queue's check (R37) with its guard true in its phase. -/
def reachesQueue (c : Core) (h : Hdr) (e : Eng) : Bool :=
  c.guard h && (c.csr.phase.toNat % 2 == (if e = .E then 1 else 0))

/-- The depths of R37. -/
def depthOf (e : Eng) : Nat :=
  match e with
  | .V => 16 | .M => 16 | .L => 8 | .E => 32

/-- The ILLEGAL traps of a CSR write that its mode may make (R27, R189): of a CSR that no mode writes, and of ACCOWN where
a targeted bank changes hands; the second CSR of a pair is asked where the first may be written now (log 114). -/
def csrTrap (i : Instr) (c : Core) : Option (Nat × Nat × Nat) :=
  (csrWriteForm i).bind (fun q =>
    let (_, cell, w, d, n) := q
    let one := fun (k : Nat) (v : Word) =>
      if someModeWrites k = false then some (1, 5, k) else if banksFree c cell k v = false then some (1, 7, main i) else none
    (one n (c.reg d)).or (if w = 1 ∧ counterFree c n = true then one (n + 1) (c.reg (d + 1)) else none))

/-- The full queue register that an engine is held pushing into (R36). -/
def pushesFull (c : Core) (e : Eng) : Option Nat :=
  match (c.eng e).pushing with
  | some (n, _) => if (c.queue n).length < 8 then none else some n
  | none => none

/-- An engine is stuck (R185): it is held pushing into a full queue register, or its head waits for an engine that is;
`k` bounds the chain of waits. -/
def stuckBy (c : Core) : Nat → Eng → Bool
  | 0, _ => false
  | k + 1, e => (pushesFull c e).isSome ||
    (match (c.eng e).queue with
     | x :: _ => x.waits.any (fun w => w.eng != e && !waitDone c w && stuckBy c k w.eng)
     | [] => false)

/-- A chain of waits is of four engines at the most. -/
def stuckEngine (c : Core) (e : Eng) : Bool := stuckBy c 4 e

/-- The CSR whose counter holds a write (R190). -/
def heldCounter (i : Instr) (c : Core) : Option Eng :=
  (csrWriteForm i).bind (fun q =>
    let (_, _, w, _, n) := q
    if counterFree c n = false then counterEngine n
    else if w = 1 ∧ counterFree c (n + 1) = false then counterEngine (n + 1) else none)

/-- The front end is dead-held by a scalar cell (R185): a token wait for a stuck engine; and once its waits are satisfied, a
compute SYNC while V, M or L is stuck, a waiting load of a granule that only stuck engines write, a counter write to a stuck
engine. -/
def deadScalar (i : Instr) (c : Core) (h : Hdr) : Bool :=
  if waitsDone c i h = false then (scalarWaits c i h).any (fun w => !waitDone c w && stuckEngine c w.eng)
  else (match i with
    | .sync _ => (c.pst == .compute || c.pst == .straggler) &&
        !(engineIdle c.engV && engineIdle c.engM && engineIdle c.engL) &&
        (stuckEngine c .V || stuckEngine c .M || stuckEngine c .L)
    | _ => false) ||
    (match loadForm i c with
     | some f => f.qual != 0 && c.csr.phase.toNat % 2 == 0 &&
         ((granules f.addr f.size).filter (fun g => !setHas c.seenFull g)).any
           (fun g => (c.writers g).all (fun e => stuckEngine c e))
     | none => false) ||
    ((heldCounter i c).any (fun e => stuckEngine c e))

/-- QDEAD of a dead-held front end (R185): the lowest full queue that an engine pushes into. -/
def qdead (c : Core) : Nat × Nat × Nat :=
  let n := ((List.range 4).find? (fun n => [Eng.V, .M, .L, .E].any (fun e => pushesFull c e == some n))).getD 0
  (8, 4 + n, n)

/-- The precise trap (CODE, SUB, ETVAL) that an instruction raises in place of its effect, in the order of R67: privilege
and phase; of an engine cell QDEAD or ENGINE at its full queue (R37, R185, R195), then the checks at dispatch; of another
the traps of its execution once its waits are satisfied, and QDEAD where it is dead-held. -/
def preciseTrap (i : Instr) (s : State) (h : Hdr) : Option (Nat × Nat × Nat) :=
  let c := s.core
  if c.guard h = false then none
  else ((privilegeTrap i s).or (phaseTrap i c)).or
    (match engineFor i c with
     | some e =>
       if depthOf e ≤ (c.eng e).queue.length then
         if (c.eng e).frozen then some (0x0A, 6, 0) else if stuckEngine c e then some (qdead c) else none
       else formTrap i c
     | none =>
       (if waitsDone c i h then (memoryTrap i c).or ((controlTrap i c).or (csrTrap i c)) else none).or
         (if deadScalar i c h then some (qdead c) else none))

/-- The supervisor state that no user instruction changes (R43, R45). -/
def supervisorPart (c : Core) : List (BitVec 64) :=
  [c.csr.cause.zeroExtend 64, c.csr.epc.zeroExtend 64, c.csr.etval.zeroExtend 64, c.csr.evec.zeroExtend 64,
   c.csr.estatus.zeroExtend 64, c.csr.phase, c.csr.coreL.zeroExtend 64, c.csr.gang.zeroExtend 64,
   c.csr.group.zeroExtend 64, c.csr.asid.zeroExtend 64, c.csr.task.zeroExtend 64, c.csr.sigmap.zeroExtend 64,
   c.csr.pwin.zeroExtend 64, BitVec.ofNat 64 (bit c.csr.supok)]

/-- A double trap (R198): the core enters no handler, no register and no supervisor CSR is written, it is ABSENT and holds no
task, and of a task's context a fault is reported with the CAUSE, EPC and ETVAL of the trap. -/
def doubleTrapped (s : State) (cause epc etval : Nat) (t : State) : Prop :=
  t.core.pst = .absent ∧ t.core.task = none ∧ t.core.held = none ∧ t.core.regs = s.core.regs ∧
  supervisorPart t.core = supervisorPart s.core ∧ t.core.csr.accown = s.core.csr.accown ∧
  (∀ k, s.core.task = some k → ∃ e : BitVec 128,
    ((t.hart 0).events.getLast? = some e ∨ t.dist.stalled.getLast? = some (0, e)) ∧
    bits e.toNat 7 0 = 4 ∧ bits e.toNat 13 8 = k.ctx % 64 ∧ bits e.toNat 127 64 = cause % 2 ^ 32 + 2 ^ 32 * epc ∧
    t.dist.report = some ⟨s.core.phys, BitVec.ofNat 32 cause, BitVec.ofNat 32 epc, BitVec.ofNat 32 etval⟩)

/-! ## Frames -/

/-- The registers that a register cell or a load without C writes: the first and how many. -/
def writtenRegs (i : Instr) (s : State) : Option (Nat × Nat) :=
  let c := s.core
  let of := fun (r : Option RegWrite) => r.map (fun w => (w.dest, 2 ^ w.width))
  (of (arithResult i c)).or ((of (mulDivResult i c)).or ((of (bitResult i c)).or
    ((of (csrReadResult i s)).or ((fpResult i c).map (fun r => (r.2.1, 1))))))

/-- What retiring an instruction may change besides its own result: the PC, the held instruction, RETIRED and CYCLE,
the innermost loop level (R173) and what debug and trace count. -/
def retiredAs (c k : Core) : Core :=
  { k with
    pc := c.pc
    held := c.held
    csr := { k.csr with retired := c.csr.retired, cycle := c.csr.cycle, lpcnt := c.csr.lpcnt, lpdep := c.csr.lpdep }
    dbg := c.dbg }

/-! ## Fetching -/

/-- The words at the PC are the words ws, each in a valid, executable and clean place that no overlay is filling
(R63, R110, R111, R345). -/
def wordsAt (c : Core) (ws : List Nat) : Bool :=
  (List.range ws.length).all (fun k =>
    let a := (c.pc.toNat + 4 * k) % 2 ^ 16
    bitAt c.pageValid.toNat (a / 4096) == 1 && bitAt c.pageExec.toNat (a / 4096) == 1 &&
    !setHas c.imemPoison (a / 8) &&
    (match c.overlay with
     | none => true
     | some o => bitAt o.mask.toNat (a / 4096) == 0) &&
    bytesAt c.imem a 4 == ws.getD k 0)

/-- No XOVL is issued whose header has not arrived (R111). -/
def noOverlayDue (c : Core) : Bool :=
  c.engE.queue.all (fun e =>
    match e.instr with
    | .xovl .. => false
    | _ => true)

/-! ## CSRs that hold a plain value -/

/-- The CSRs that a writing cell changes as plain data, with the bits that are stored (R45, R188, R189). -/
def plainCsr (i : Nat) : Option Nat :=
  if [0x002, 0x003, 0x054, 0x055, 0x0C3].contains i ∨ (0x020 ≤ i ∧ i ≤ 0x027) ∨ (0x030 ≤ i ∧ i ≤ 0x033) ∨
      (0x100 ≤ i ∧ i ≤ 0x10B) then some 0xFFFFFFFF
  else if 0x048 ≤ i ∧ i ≤ 0x04F ∨ i = 0x060 then some 0xFFFFFF
  else if i = 0x050 then some 0xFF
  else if i = 0x10C then some 7
  else if i = 0x004 then some 0xFFFC
  else none

/-- What a permitted write of v stores in the CSRs with rules of their own, over what they read before: STATUS.PWOOB, MSTAT,
VSTAT and FPCTL.XF clear by ones (R47, R48, R129, R188, R215, R269, R287); CAUSE and ESTATUS have 16 bits; FPCTL.RM 5 to 7 is
0 (R129); PWIN is a multiple of 4 up to 4,096 (R33); CFLSEL has 10 bits (R461); DBGCTL.STM 3 is 0 (R449); TRACECTL.SZ ends at
8 and SUSP clears by one (R458). -/
def specialCsr (cell i : Nat) (old v : Word) : Option Word :=
  let keep := fun (m : Word) => (old &&& ~~~m) ||| (csrNew cell old v &&& m)
  let clear := fun (m x : Word) => x &&& ~~~(v &&& m)
  match i with
  | 0x000 => some (clear 0x4 old)
  | 0x001 => some (keep 0xFFFF)
  | 0x005 => some (keep 0xFFFF)
  | 0x051 => some (clear 0xFE old)
  | 0x052 => some (clear 0x1F0F old)
  | 0x053 =>
    let x := clear 0x1F0000 (keep 0x1F7)
    some (if 5 ≤ x.toNat % 8 then x &&& ~~~7 else x)
  | 0x061 => some (BitVec.ofNat 32 (min 4096 ((csrNew cell old v).toNat / 4 * 4)))
  | 0x080 => some (keep 0x3FF)
  | 0x0C0 =>
    let x := keep 0xF
    some (if x.toNat / 2 % 4 = 3 then x &&& ~~~6 else x)
  | 0x0C2 =>
    let x := clear 0x2 (keep 0xF3D)
    some (if 8 < x.toNat / 2 ^ 8 % 16 then (x &&& ~~~0xF00) ||| 0x800 else x)
  | _ => none

/-- The identifiers of a channel's transfers that have not completed. -/
def unfinished (c : Core) (ch : Nat) : List Word :=
  (c.engE.queue.filter (fun x => x.stage != .finished && xferChan x.instr == some ch)).map (·.xid)

/-- XDONE of a channel where it may be behind XNEXT (R278, R502): the first identifier from `now` on that has not completed,
at the latest `next`. -/
def doneFrom (c : Core) (ch : Nat) (next now : Word) : Word :=
  let gap := (next - now).toNat
  if gap < 2 ^ 31 then now + BitVec.ofNat 32 ((unfinished c ch).foldl (fun m id => min m (id - now).toNat) gap) else now

/-- What a read gives of the CSRs that are fields of the core or of the device (R45). -/
def csrField (time : BitVec 64) (c : Core) (i : Nat) : Option Word :=
  let half := fun (x : BitVec 64) (k : Nat) => some (BitVec.ofNat 32 (x.toNat / 2 ^ (32 * k)))
  match i with
  | 0x001 => some c.csr.cause
  | 0x002 => some c.csr.epc
  | 0x003 => some c.csr.etval
  | 0x004 => some c.csr.evec
  | 0x005 => some c.csr.estatus
  | 0x010 => half c.csr.phase 0
  | 0x011 => half c.csr.phase 1
  | 0x012 => some (c.csr.coreL.zeroExtend 32)
  | 0x013 => some (BitVec.ofNat 32 c.phys)
  | 0x014 => some (c.csr.gang.zeroExtend 32)
  | 0x017 => some c.csr.task
  | 0x020 => some c.engV.iss
  | 0x021 => some c.engM.iss
  | 0x022 => some c.engL.iss
  | 0x023 => some c.engE.iss
  | 0x024 => some c.engV.done
  | 0x025 => some c.engM.done
  | 0x026 => some c.engL.done
  | 0x027 => some c.engE.done
  | 0x050 => some (c.csr.accown.zeroExtend 32)
  | 0x052 => some c.csr.vstat
  | 0x053 => some c.csr.fpctl
  | 0x054 => some c.csr.seedlo
  | 0x055 => some c.csr.seedhi
  | 0x061 => some (c.csr.pwin.zeroExtend 32)
  | 0x070 => half c.csr.retired 0
  | 0x071 => half c.csr.retired 1
  | 0x072 => half c.csr.cycle 0
  | 0x073 => half c.csr.cycle 1
  | 0x074 => half time 0
  | 0x075 => half time 1
  | 0x0F0 => some c.csr.eallow
  | 0x10C => some (c.csr.lpdep.zeroExtend 32)
  | 0x110 => some (BitVec.ofNat 32 (sumTo 4 (fun n => (c.queue n).length * 32 ^ n)))
  | _ => none

/-- STATUS by its fields (R48, R55): PRIV, SUPOK, PWOOB, DET, XBLK, PST and STRK. -/
def statusFields (det : Bool) (c : Core) : Nat :=
  let pst := if c.halted then 5 else match c.pst with
    | .compute => 0 | .ready => 1 | .exchange => 2 | .xready => 3 | .straggler => 4 | .absent => 6
  let xblk := decide (c.csr.phase.toNat % 2 = 1 ∧ c.pst ≠ .straggler)
  (if c.csr.priv then 1 else 0) + (if c.csr.supok then 2 else 0) + (if c.csr.pwoob then 4 else 0) +
    (if det then 8 else 0) + (if xblk then 16 else 0) + 32 * pst + 256 * c.csr.strk.toNat

/-! ## Rounding -/

/-- The rational number of a finite value. -/
def ratOf : Val → Option ℚ
  | .fin neg n d => some ((if neg then -1 else 1) * (n : ℚ) / d)
  | _ => none

/-- The integer v is what rounding x in a mode gives, next to x and in the direction of the mode (R124, R125). -/
def roundedTo (m : Mode) (x : ℚ) (v : Int) : Prop :=
  |(v : ℚ) - x| < 1 ∧
  (match m with
   | .rne => 2 * |(v : ℚ) - x| ≤ 1 ∧ (2 * |(v : ℚ) - x| = 1 → v % 2 = 0)
   | .rtz => |(v : ℚ)| ≤ |x|
   | .rup => x ≤ v
   | .rdn => (v : ℚ) ≤ x
   | .sr _ => True)

/-- The rational number of a finite code of a format. -/
def codeValue (f : Fmt) (c : Nat) : Option ℚ := if c < 2 ^ f.width then ratOf (f.value c) else none

/-- A format's largest finite value, and what lies between it and the value before it. -/
def topValue (f : Fmt) : ℚ := (codeValue f f.maxCode).getD 0
def topStep (f : Fmt) : ℚ := topValue f - (codeValue f (f.maxCode - 1)).getD 0

/-- The member of the extended set that a mode chooses for x lies within the format (R125): the next member beyond the
largest finite value, where the tie goes to, is one step further. -/
def staysFinite (f : Fmt) (m : Mode) (x : ℚ) : Prop :=
  match m with
  | .rne => |x| < topValue f + topStep f / 2
  | .rtz => |x| < topValue f + topStep f
  | .rup => -(topValue f + topStep f) < x ∧ x ≤ topValue f
  | .rdn => -topValue f ≤ x ∧ x < topValue f + topStep f
  | .sr _ => |x| ≤ topValue f

/-- The code c, of value y, is what rounding x in a mode chooses among the format's finite values (R125). -/
def chosen (f : Fmt) (m : Mode) (x : ℚ) (c : Nat) (y : ℚ) : Prop :=
  ∀ k z, codeValue f k = some z →
    (match m with
     | .rne => |y - x| ≤ |z - x| ∧ (z ≠ y → |z - x| = |y - x| → c % 2 = 0)
     | .rtz => |y| ≤ |x| ∧ (|z| ≤ |x| → |z| ≤ |y|)
     | .rup => x ≤ y ∧ (x ≤ z → y ≤ z)
     | .rdn => y ≤ x ∧ (z ≤ x → z ≤ y)
     | .sr _ => ¬(x < z ∧ z < y) ∧ ¬(y < z ∧ z < x) ∧ (z = x → y = x))

/-- What overflow gives in a format with infinities (R126). -/
def overflowTo (f : Fmt) (m : Mode) (sat neg : Bool) : Nat :=
  let sign := if neg then 2 ^ (f.width - 1) else 0
  let toMax := sat ||
    (match m with
     | .rtz => true
     | .rup => neg
     | .rdn => !neg
     | _ => false)
  sign + f.maxCode + (if toMax then 0 else 1)

end Sys2Proof.Claims

/-! ## Words that are refused -/

namespace Sys2Proof.Claims
open Sys2Proof.Machine

/-- The number in bits hi to lo of a word. -/
def field (w hi lo : Nat) : Nat := w / 2 ^ lo % 2 ^ (hi + 1 - lo)

/-- The word is of an allocated class and cell (R66, R87 to R97). -/
def cellAllocated (w : Nat) : Bool :=
  let sr := field w 27 23
  let op := field w 27 22
  w != 0 &&
  (match field w 31 28 with
   | 0x0 => decide (sr ≤ 13 ∨ (16 ≤ sr ∧ sr ≤ 21) ∨ 24 ≤ sr)
   | 0x1 => decide (sr ≤ 25 ∧ sr ≠ 7)
   | 0x2 => decide (field w 27 24 ≤ 13)
   | 0x3 => decide (field w 27 24 ≤ 14)
   | 0x4 => decide (field w 27 26 < 2 ∨ field w 25 24 < 2)
   | 0x5 => decide (field w 27 26 = 0 ∨ (field w 27 26 = 1 ∧ field w 25 22 ≤ 4) ∨ (field w 27 26 = 2 ∧ field w 25 20 ≤ 10))
   | 0x8 => decide (op ≤ 27 ∨ (32 ≤ op ∧ op ≤ 36) ∨ (40 ≤ op ∧ op ≤ 42) ∨ (44 ≤ op ∧ op ≤ 57))
   | 0xA => decide (sr ≤ 10)
   | 0xC => decide (op ≤ 2 ∨ (16 ≤ op ∧ op ≤ 36))
   | _ => false)

/-- The cell of an allocated word takes a LIMM of the given value (R75, R76, R89 to R95). -/
def limmFits (w v : Nat) : Bool :=
  match field w 31 28 with
  | 0x2 => decide (field w 27 24 < 4 ∨ 7 ≤ field w 27 24)
  | 0x3 => true
  | 0x4 => decide (field w 27 24 = 9 ∧ v < 2 ^ 22)
  | 0xC =>
    let op := field w 27 22
    [16, 17, 18, 19, 20, 21, 22, 27, 28, 29, 31, 36].contains op || (op == 33 && decide (v < 2 ^ 24))
  | _ => false

/-- The fields of an allocated word that must be zero (R70, R71, R87 to R95), by their highest and lowest bits; `limm` says
that a LIMM stands before it. -/
def zeroFields (w : Nat) (limm : Bool) : List (Nat × Nat) :=
  let sr := field w 27 23
  let si := field w 27 24
  let op := field w 27 22
  let sy := field w 25 20
  let mod := field w 3 3
  match field w 31 28 with
  | 0x0 => if 16 ≤ sr ∧ sr ≤ 21 then [(20, 18)] else []
  | 0x1 => if 8 ≤ sr ∧ sr ≤ 11 then [(8, 3)] else if 22 ≤ sr then [(20, 18)] else []
  | 0x2 => if 4 ≤ si ∧ si ≤ 6 then [(11, 8)] else if si = 7 then [(17, 12)] else if 8 ≤ si then [(23, 21)] else []
  | 0x3 => if si = 10 ∨ si = 11 then [(21, 20)] else if si = 12 then [(21, 19)] else []
  | 0x5 =>
    (match field w 27 26 with
     | 0 => [(3, 3)]
     | 1 => if field w 25 22 ≤ 2 then [(12, 3)] else [(15, 3)]
     | _ =>
       if sy = 0 then [(19, 3)] else if sy ≤ 3 then [(19, 3), (2, 0)] else if sy ≤ 5 then [(19, 14)]
       else if sy ≤ 7 then [(13, 5)] else if sy = 8 then [(7, 3)] else [(19, 6)])
  | 0x8 =>
    if op ≤ 5 ∨ (16 ≤ op ∧ op ≤ 24) ∨ (32 ≤ op ∧ op ≤ 35) ∨ op = 56 then [(3, 3)]
    else if op ≤ 15 ∨ op = 25 ∨ op = 26 ∨ op = 47 then [(13, 3)]
    else if op = 27 ∨ (op = 36 ∧ mod = 1) then [(9, 4)]
    else if op = 40 then [(13, 10)]
    else if op = 41 ∨ op = 42 ∨ op = 46 ∨ op = 57 then [(13, 10), (3, 3)]
    else if op = 44 ∨ op = 45 ∨ op = 52 ∨ op = 53 then [(9, 3)]
    else if 48 ≤ op ∧ op ≤ 51 then (if mod = 1 ∧ op ≠ 51 then [(21, 20), (13, 4)] else [(13, 4)])
    else if op = 54 ∨ op = 55 then [(17, 10), (3, 3)]
    else []
  | 0xA =>
    (match sr with
     | 0 => [(15, 3)]
     | 1 => [(18, 3)]
     | 5 => if field w 5 3 = 2 then [(18, 6)] else [(15, 6)]
     | 6 => [(22, 19), (15, 6)]
     | 7 => [(15, 6)]
     | 8 => [(15, 6)]
     | 10 => [(22, 5)]
     | k => if k = 3 ∨ k = 4 then [(5, 3)] else [(22, 3)])
  | 0xC =>
    if op ≤ 1 then [(13, 3)] else if op = 2 then [(17, 14), (7, 3)]
    else if op = 16 ∨ op = 20 ∨ op = 22 ∨ op = 28 ∨ op = 36 then [(21, 18)]
    else if op = 17 ∨ op = 19 ∨ op = 21 then [(17, 14)]
    else if op = 18 ∨ op = 30 then [(21, 14), (5, 3)]
    else if op = 27 then [(5, 3)] else if op = 29 then [(17, 14), (5, 3)]
    else if op = 31 then [(21, 14)] else if op = 32 then [(21, 18), (5, 3)]
    else if op = 33 then (if limm then [(21, 21), (17, 3)] else [(21, 21), (17, 14), (7, 3)])
    else if op = 34 then (if field w 5 3 = 1 then [(21, 21), (17, 6)] else [(21, 14)])
    else if op = 35 then [(21, 8), (5, 3)] else []
  | _ => []

/-- A word names both a handle and a scalar where its cell takes one of them (R83, R229). -/
def namesBoth (w : Nat) : Bool :=
  let op := field w 27 22
  field w 31 28 == 8 && field w 9 4 != 0 &&
  (if op = 46 then field w 17 14 != 0
   else field w 13 10 != 0 && decide (op ≤ 5 ∨ (16 ≤ op ∧ op ≤ 24) ∨ (32 ≤ op ∧ op ≤ 35)))

/-- The width code of a scalar cell is one that it does not permit (R72, R87, R88, R90, R92). -/
def widthWrong (w : Nat) : Bool :=
  let sr := field w 27 23
  let si := field w 27 24
  match field w 31 28 with
  | 0x0 => if sr ≤ 1 ∨ (16 ≤ sr ∧ sr ≤ 21) then field w 22 22 != 0 else decide (6 ≤ sr ∧ sr ≤ 13) && field w 22 21 != 0
  | 0x1 => if sr = 12 ∨ sr = 13 then field w 22 22 != 0 else field w 22 21 != 0
  | 0x3 => [0, 1, 5, 6, 10, 11, 12, 13, 14].contains si && field w 23 22 != 0
  | 0x5 => field w 27 26 == 0 && field w 23 23 != 0
  | _ => false

/-- A register number is no multiple of its group's size (R15, R72, R85, R92), whatever the width that W gives. -/
def groupWrong (w : Nat) : Bool :=
  let sr := field w 27 23
  let si := field w 27 24
  let op := field w 27 22
  let off := fun (hi lo k : Nat) => field w hi lo % 2 ^ k != 0
  let k := field w 22 21
  match field w 31 28 with
  | 0x0 =>
    if sr ≤ 13 ∨ 24 ≤ sr then off 20 15 k || off 14 9 k || off 8 3 k
    else decide (16 ≤ sr ∧ sr ≤ 21) && (off 14 9 k || off 8 3 k)
  | 0x1 =>
    if 8 ≤ sr ∧ sr ≤ 11 ∨ sr = 21 then off 20 15 k || off 14 9 k
    else if 22 ≤ sr then off 14 9 k || off 8 3 k
    else sr != 12 && sr != 13 && (off 20 15 k || off 14 9 k || off 8 3 k)
  | 0x3 => (decide (si ≤ 9) || si == 13 || si == 14) && off 21 16 (field w 23 22)
  | 0x5 =>
    (field w 27 26 == 0 && (off 21 16 (field w 23 22) || off 15 4 (field w 23 22))) ||
    (field w 27 20 == 0x88 && off 13 8 1)
  | 0x8 =>
    if op = 40 ∨ op = 41 ∨ op = 42 ∨ op = 54 then off 9 4 2 else if op = 55 then off 9 4 3 else op == 56 && off 9 4 1
  | 0xC =>
    if op = 18 ∨ op = 20 then off 13 8 2
    else ([16, 17, 19, 21, 22, 23, 24, 25, 26, 27, 28, 29, 30, 32, 36].contains op) && off 13 8 1
  | _ => false

/-- The CSR indices that R45 lists. -/
def listed (k : Nat) : Bool :=
  [(0, 5), (0x10, 0x17), (0x20, 0x27), (0x30, 0x33), (0x40, 0x55), (0x60, 0x61), (0x70, 0x75), (0x80, 0x81), (0xC0, 0xC3),
   (0xF0, 0xF0), (0x100, 0x10C), (0x110, 0x110)].any (fun r => decide (r.1 ≤ k ∧ k ≤ r.2))

/-- A field holds a code that its cell does not permit, or names an unlisted CSR (R72, R84, R88, R94 to R96). -/
def codeWrong (w : Nat) : Bool :=
  let sr := field w 27 23
  let op := field w 27 22
  let mod := field w 5 3
  match field w 31 28 with
  | 0x1 => sr == 21 && decide (4 ≤ field w 8 3)
  | 0x5 => field w 27 26 == 0 && !(listed (field w 15 4) && (field w 22 22 == 0 || listed (field w 15 4 + 1)))
  | 0x8 => op == 55 && field w 9 7 == 0
  | 0xA =>
    if sr = 3 ∨ sr = 4 then decide (field w 15 12 = 0 ∨ 5 ≤ field w 15 12)
    else if sr = 0 then decide (4 ≤ field w 18 16 ∨ 2 ^ field w 18 16 ≤ field w 22 19)
    else if sr = 5 then decide (3 ≤ mod ∧ field w 18 6 = 0)
    else if sr = 6 then decide (7 < field w 18 16 + mod)
    else sr == 8 && field w 5 4 != 0
  | 0xC =>
    if [16, 17, 19, 20, 22, 36].contains op then decide (3 ≤ mod)
    else if op = 21 then decide (4 ≤ mod)
    else if op = 28 ∨ op = 31 then field w 5 4 != 0
    else if 23 ≤ op ∧ op ≤ 26 then decide (9 ≤ field w 21 18 ∨ 5 ≤ mod)
    else op == 34 && decide (2 ≤ mod ∧ field w 21 6 = 0)
  | _ => false

/-- A TOK word whose bit 0 is set, or in which a field that waits for nothing names an engine (R77). -/
def tokWrong (t : Nat) : Bool :=
  t % 2 != 0 || [19, 10, 1].any (fun k => field t (k + 6) k == 127 && field t (k + 8) (k + 7) != 0)

/-- How the device refuses a main word behind the prefixes given, SUB with ETVAL, by the steps 2 to 4 of R67 (R66 to R68, R70
to R72, R76, R77). XPF without the LIMM that it requires is left out: its ETVAL is the model's choice (log 81). -/
def refusal (tok limm : Option Nat) (w : Nat) : Option Reject :=
  if !cellAllocated w then some ⟨0, w⟩
  else if limm.any (fun l => !limmFits w (l % 2 ^ 28)) then some ⟨4, limm.getD 0⟩
  else if field w 31 22 = 0x312 ∧ limm.isNone then none
  else if tok.any tokWrong then some ⟨1, tok.getD 0⟩
  else if (zeroFields w limm.isSome).any (fun f => field w f.1 f.2 != 0) ∨ namesBoth w then some ⟨1, w⟩
  else if groupWrong w then some ⟨3, w⟩
  else if widthWrong w ∨ codeWrong w then some ⟨5, w⟩
  else none

end Sys2Proof.Claims

/-! ## Steps of the exchange engine, the memory ports and the Iris -/

namespace Sys2Proof.Claims
open Sys2Proof.Machine

/-- The state is a given one. -/
def isState (u : State) : State → Bool := fun t => t == u

/-- An event that hart h has been queued, the last one in its queue, satisfies f (R378). -/
def toldHart (s : State) (h : Nat) (f : Nat → Bool) (t : State) : Bool :=
  match (t.hart h).events.getLast? with
  | some e => (t.hart h).events.dropLast == (s.hart h).events && f e.toNat
  | none => false

/-- The queue of hart h has room, and no earlier event waits for it (R378). -/
def hartRoom (s : State) (h : Nat) : Bool :=
  decide (h < 8) && decide ((s.hart h).events.length < 256) && s.dist.stalled.all (fun p => p.1 != h)

/-- The exchange engine of core p may go on (R279, R358, R447): its view is odd, and nothing stops it. -/
def exchangeGoes (s : State) (p : Nat) : Bool :=
  let c := s.coreAt p
  decide (p < 1600) && !s.stilled && !debugHolds c && !c.engE.frozen && (c.pst == .exchange || c.pst == .xready)

/-- The first instruction of the E queue that has not begun, with its token waits satisfied (R276). -/
def firstUnbegun (c : Core) : Option Entry :=
  (c.engE.queue.find? (fun x => x.stage == .queued)).filter (fun x => x.waits.all (waitDone c))

/-- A transfer's pages are all translated. -/
def translated (y : Xfer) : Bool := y.pages.all (fun m => m.res != .waiting)

/-! ## Transfers -/

/-- The numbers that a transfer's entry captured (R282, R283): its first address, its second one, and its count. -/
def firstAddr (x : Entry) : Nat := x.scalars.getD 0 0
def secondAddr (x : Entry) : Nat := x.scalars.getD 1 0
def countHeld (x : Entry) : Nat := x.scalars.getD 2 0

/-- Its first handle. -/
def handle0 (x : Entry) : HandleBits := x.handles.getD 0 0

/-- A transfer that describes no bytes (R21, R283). -/
def describesNothing (x : Entry) : Bool :=
  match x.instr with
  | .xsig .. => false
  | .xovl .. => false
  | .xpf .. => countHeld x == 0
  | _ => countHeld x == 0 || x.handles.any (fun h => hD0 h * hD1 h * hD2 h == 0)

/-- The pieces of at most 512 bytes of a transfer from the one that MPC names on (R42, R276): those to be moved now, and
those deferred towards a straggler (R310). An XBC has them for each member, XGTH and XENC for each row. -/
def begunPieces (s : State) (c : Core) (x : Entry) : List Nat × List Nat :=
  let n := countHeld x
  let a := firstAddr x
  let first := c.engE.mpc.toNat
  let all := List.range' first ((n + 511) / 512 - first)
  let toward := fun (l : Nat) => if s.reachOf c l == .later then (([] : List Nat), all) else (all, [])
  let rows := ((List.range n).flatMap (fun r =>
    (List.range ((hRowBytes (handle0 x) + 511) / 512)).map (65536 * r + ·))).drop first
  let members := fun (q : Reach) => ((List.range (2 ^ (a / 2 ^ 51 % 8))).filter (fun i =>
    s.reachOf c (a / 2 ^ 40 % 2 ^ 11 + i) == q)).flatMap (fun i => all.map (65536 * i + ·))
  if describesNothing x then ([], [])
  else match x.instr with
    | .xput .. => toward (a / 2 ^ 30 % 2 ^ 11)
    | .xget .. => if a / 2 ^ 62 % 4 = 3 then (all, []) else toward (a / 2 ^ 30 % 2 ^ 11)
    | .xbc .. => (members .now, members .later)
    | .xgth .. => (rows, [])
    | .xenc .. => (rows, [])
    | .xld .. => (all, [])
    | .xst .. => (all, [])
    | .xldg .. => (all, [])
    | .xdec .. => (all, [])
    | .xrdev .. => (all, [])
    | .xpf .. => ([], [])
    | .xovl .. => ([], [])
    | _ => ([0], [])

/-- A transfer whose virtual range is translated as it begins (R355). -/
def translatesAtBegin (x : Entry) : Bool :=
  match x.instr with
  | .xpf .. => true
  | .xst .. => true
  | .xatmGrp .. => true
  | .xatmGang .. => true
  | .xatmDev .. => true
  | .xatmSys .. => true
  | .xlaunch .. => true
  | .xovl .. => decide (firstAddr x / 2 ^ 62 % 4 = 0)
  | _ => false

/-- What an instruction waits for beside its tokens before it begins (R276): XSIG for its channel (R304), XENC for the
earlier ones of its plane (R418), an atomic of order SC for the earlier ones (R329). -/
def conditionMet (c : Core) (x : Entry) : Bool :=
  let sc := fun (i : Instr) => (atomOf i).any (fun o => o.2 == 4)
  match x.instr with
  | .xsig .. => c.idDone x.chan (x.xid - 1)
  | .xenc .. => c.xfers.all (fun y =>
      match y.entry.instr with
      | .xenc .. => !(firstAddr y.entry / 2 ^ 48 % 16 == firstAddr x / 2 ^ 48 % 16 &&
          firstAddr y.entry / 2 ^ 46 % 4 == firstAddr x / 2 ^ 46 % 4)
      | _ => true)
  | i => !sc i || c.xfers.all (fun y => !sc y.entry.instr)

/-- The fault record of a channel after a failure (R287): the first one since the record was cleared is described, each
later one counts. -/
def recordOf (old : BitVec 128) (id : Word) (kind member addr : Nat) : BitVec 128 :=
  let n := old.toNat / 2 ^ 48 % 2 ^ 16
  if n = 0 then BitVec.ofNat 128 (id.toNat + 2 ^ 32 * kind + 2 ^ 40 * member + 2 ^ 48 + 2 ^ 64 * (addr % 2 ^ 64))
  else if n = 0xFFFF then old
  else old + BitVec.ofNat 128 (2 ^ 48)

/-- A begun transfer of core c follows what is not done: a transfer dispatched in an earlier exchange (R317), or a fill that
reads an SO page and was named in an exchange before its own (R322, R323, R326). -/
def comesAfter (s : State) (c : Core) (y : Xfer) : Bool :=
  c.xfers.any (fun a => a.precedes y) ||
  (!y.late && s.map.fills.any (fun d => d.core == c.phys && decide (d.phase.toNat < y.entry.phase.toNat) &&
    d.pages.any (fun m =>
      match m.res with
      | .ok _ _ kind => kind == 0
      | _ => false)))

/-- The failure of a transfer that waits for those that it follows. -/
def waitingFailure (y : Xfer) : Option Nat :=
  y.pages.findSome? (fun m =>
    match m.res with
    | .fail k => some k
    | _ => none)

/-- No begun transfer bears the identifier of x on its channel. -/
def freshId (c : Core) (x : Entry) : Bool := c.xfers.all (fun y => !(y.entry.chan == x.chan && y.entry.xid == x.xid))

/-- A transfer begins (R276): where it translates nothing the begun transfer is the last one, with its pieces, and VSTAT
notes that some are deferred (R310); a transfer that R288, R289, R350, R418 or R441 refuses has failed, with its record, or
waits for what it follows before it fails (R317); one that translates stands among the begun ones. -/
def begins (s : State) (p : Nat) (x : Entry) : Option (State → Bool) :=
  let c := s.coreAt p
  let ps := begunPieces s c x
  let b : Entry := { x with stage := .begun }
  let fail := if describesNothing x then none else s.beginFail c x
  if !freshId c x ∨ 4 ≤ x.chan then none
  else match fail with
    | some k =>
      let atOnce := match x.instr with
        | .xst .. => true
        | .xpf .. => true
        | _ => !comesAfter s c (Xfer.mk b ps.1 ps.2 [] [] false false [] false 0 (!ps.2.isEmpty))
      if !atOnce then some (fun t =>
        let d := t.coreAt p
        d.xfers.map (·.entry) == c.xfers.map (·.entry) ++ [b] && (d.xfers.getLast?.map (·.failed)) == some false &&
        (d.xfers.getLast?.bind waitingFailure) == some k && (d.xfers.getLast?.map (·.pieces.isEmpty)) == some false &&
        d.faultRec == c.faultRec && d.mem == c.mem && d.full == c.full && d.poison == c.poison)
      else some (fun t =>
        let a := match x.instr with
          | .xpf .. => secondAddr x
          | _ => firstAddr x
        let d := t.coreAt p
        d.xfers.map (·.entry) == c.xfers.map (·.entry) ++ [b] && (d.xfers.getLast?.map (·.failed)) == some true &&
        (d.xfers.getLast?.map (·.pieces)) == some [] && (d.xfers.getLast?.map (·.deferred)) == some [] &&
        (d.faultRec[x.chan]?) == (c.faultRec[x.chan]?.map (fun r => recordOf r x.xid k 0xFF a)) &&
        d.csr.vstat.toNat / 2 ^ (8 + x.chan) % 2 == 1)
    | none =>
      if translatesAtBegin x && !describesNothing x then some (fun t =>
        (t.coreAt p).xfers.map (·.entry) == c.xfers.map (·.entry) ++ [b])
      else some (fun t =>
        let d := t.coreAt p
        d.xfers == c.xfers ++ [Xfer.mk b ps.1 ps.2 [] [] false false [] false 0 (!ps.2.isEmpty)] &&
        d.csr.vstat == (if ps.2.isEmpty then c.csr.vstat else c.csr.vstat ||| 0x1000) && d.mem == c.mem &&
        d.full == c.full)

/-- The bytes at a granule's place. -/
def placeBytes (t : State) (pl : Place) : List Byte :=
  match pl with
  | .window q o => readBytes (t.coreAt q).mem o 16
  | .staging g => readBytes t.map.staging (16 * g) 16

/-- A granule has landed at its place (R285, R288): the bytes are there, its full/empty bit is set, and nothing of it is
poisoned; in the register window, the CSR image, the full/empty bits and instruction memory its two words are held. -/
def holdsGranule (t : State) (pl : Place) (bs : List Byte) : Bool :=
  match pl with
  | .window q o =>
    let c := t.coreAt q
    if o < 0xA1000 then
      placeBytes t pl == bs && (decide (0x80000 ≤ o) || setHas c.full (o / 16)) &&
      !setHas c.poison (o / 8) && !setHas c.poison (o / 8 + 1)
    else
      [0, 1].all (fun k => c.heldWrites.any (fun w => w.off == o + 8 * k && w.data == (bs.drop (8 * k)).take 8 && !w.poisoned))
  | .staging g => placeBytes t pl == bs && t.stgFull g && (t.stgBad g).isEmpty

/-- Granules may land at places: they are distinct, empty where they have full/empty bits (R285), and the lists that hold
their memories are in canonical form. -/
def mayLand (s : State) (pls : List Place) : Bool :=
  decide pls.Nodup && pls.all (fun pl => !s.placeFull pl &&
    (match pl with
     | .window q o => decide (q < 1600 ∧ o % 16 = 0) && memWf (s.coreAt q).mem && setWfFrom 0 (s.coreAt q).full &&
         setWfFrom 0 (s.coreAt q).poison
     | .staging _ => memWf s.map.staging && setWfFrom 0 s.map.stgFull && setWfFrom 0 s.map.stgPoison))

/-- The granules of a C source, by core and window offset, or in staging (R284). -/
def takenPlaces (s : State) (c : Core) (x : Entry) (k : Nat) : List Place :=
  let gs := pieceGranules (countHeld x) (k % 65536)
  let here := gs.map (fun j => Place.window c.phys (hByteAddr (handle0 x) (16 * j)))
  match x.instr with
  | .xput _ _ _ _ q => if q = 1 then here else []
  | .xst _ _ _ _ q => if q = 1 then here else []
  | .xget _ _ _ _ q =>
    if q = 1 ∧ firstAddr x / 2 ^ 62 % 4 ≠ 3 then
      (match s.memberCore c (firstAddr x / 2 ^ 30 % 2 ^ 11) with
       | some m => gs.map (fun j => Place.window m (firstAddr x % 2 ^ 20 + 16 * j))
       | none => [])
    else []
  | .xld _ _ _ _ q => if q = 1 then gs.map (fun j => Place.staging (firstAddr x % 2 ^ 27 / 16 + j)) else []
  | _ => []

/-- The full/empty bit of a place. -/
def placeIsFull (t : State) (pl : Place) : Bool :=
  match pl with
  | .window q o => decide (o < 0x80000) && setHas (t.coreAt q).full (o / 16)
  | .staging g => t.stgFull g

/-- Where the granules of a piece are counted (R291): the counter of the receiving core that the address names. -/
def countedAt (x : Entry) (pls : List Place) : Option (Nat × Nat) :=
  match landCounter x, pls.head? with
  | some l, some (.window q _) => some (q, l)
  | _, _ => none

/-- A piece whose granules bs go to places pls: what holds once it has landed. -/
def landedAt (s : State) (p t : Nat) (y : Xfer) (k : Nat) (pls : List Place) (bs : List (List Byte)) :
    Option (State → Bool) :=
  let x := y.entry
  if !mayLand s pls ∨ (s.coreAt p).xfer x.chan x.xid ≠ some y ∨ (s.coreAt p).xfers[t]? ≠ some y then none
  else some (fun u =>
    (pls.zip bs).all (fun q => holdsGranule u q.1 q.2) &&
    ((u.coreAt p).xfers[t]?.map (·.pieces)) == some (y.pieces.erase k) &&
    (takenPlaces s (s.coreAt p) x k).all (fun pl => pls.contains pl || !placeIsFull u pl) &&
    (match countedAt x pls with
     | some (q, l) => (u.coreAt q).csr.land[l]? ==
         ((s.coreAt q).csr.land[l]?).map (fun v => v - BitVec.ofNat 24 (16 * pls.length))
     | none => true))

/-- The sources of a piece have come, none of them poisoned or failed (R284, R289 to R294, R301): their bytes. -/
def sourceBytes (s : State) (c : Core) (x : Entry) (k : Nat) : Option (List (List Byte)) :=
  (s.sources c x k).foldr (fun d r =>
    match d, r with
    | .got bs [], some l => some (bs :: l)
    | _, _ => none) (some [])

/-- The root of a tree of 2^k leaves (R296). -/
def treeOf (f : Option Nat → Option Nat → Option Nat) : Nat → List (Option Nat) → Option Nat
  | 0, l => l.headD none
  | k + 1, l => f (treeOf f k (l.take (2 ^ k))) (treeOf f k (l.drop (2 ^ k)))

/-- A node of a group reduction (R297): operation 0 ADD, 1 MIN, 2 MAX, 3 OR. -/
def nodeOf (op : Nat) (f : Fmt) (x y : Option Nat) : Option Nat :=
  match x, y with
  | some a, some b =>
    let u := f.value a
    let v := f.value b
    some (match op with
      | 0 => if f.isInt then (a + b) % 2 ^ f.width else (round f .rne false (u.add false v).1).code
      | 3 => a ||| b
      | _ =>
        if u.isNan || v.isNan then (round f .rne false .nan).code
        else if op = 1 then (if v.ltz u then b else a) else (if u.ltz v then b else a))
  | some a, none => some a
  | none, b => b

/-- What a root without a present member writes (R297). -/
def voidValue (op : Nat) (f : Fmt) : Nat :=
  let least := match f.int? with
    | some (lo, _) => (lo % 2 ^ f.width).toNat
    | none => (round f .rne false (.inf true)).code
  let most := match f.int? with
    | some (_, hi) => (hi % 2 ^ f.width).toNat
    | none => (round f .rne false (.inf false)).code
  if op = 1 then most else if op = 2 then least else 0

/-- The result granule of a group of 2^k members (R296, R297), element by element. -/
def groupResult (op : Nat) (f : Fmt) (k : Nat) (ms : List (Option Nat)) : Nat :=
  sumTo (128 / f.width) (fun i =>
    ((treeOf (nodeOf op f) k (ms.map (Option.map (fun g => g / 2 ^ (f.width * i) % 2 ^ f.width)))).getD (voidValue op f)) *
      2 ^ (f.width * i))

/-- An atomic (R299): the new memory value, if it writes one, and the CAS outcome. -/
def atomicResult (op : Nat) (f : Fmt) (old a b : Nat) : Option Nat × Nat :=
  let least := fun (m : Bool) =>
    if f = .fp32 then fpPick m old a
    else if m then pat32 (min (sx old 32) (sx a 32)) else pat32 (max (sx old 32) (sx a 32))
  match op with
  | 0 => (some ((old + a) % 2 ^ 32), 0)
  | 1 => (some (round .fp32 .rne false ((Fmt.fp32.value old).add false (Fmt.fp32.value a)).1).code, 0)
  | 2 => (some (least true), 0)
  | 3 => (some (least false), 0)
  | 4 => (some a, 0)
  | 5 => if old = a then (some b, 1) else (none, 0)
  | 6 => (some (old &&& a), 0)
  | 7 => (some (old ||| a), 0)
  | _ => (some (old ^^^ a), 0)

/-- A piece of an XLDG of which every present member has its granules (R296 to R298). -/
def reduces (s : State) (p t : Nat) (y : Xfer) (k op : Nat) : Option (State → Bool) :=
  let x := y.entry
  let c := s.coreAt p
  let a := firstAddr x
  let g := a / 2 ^ 51 % 8
  let ms := (List.range (2 ^ g)).map (fun i =>
    match s.memberCore c (a / 2 ^ 40 % 2 ^ 11 + i) with
    | some q => if setHas s.iris.smask q ∨ (s.coreAt q).pst = .absent then none else some q
    | none => none)
  let js := pieceGranules (countHeld x) k
  let at' := fun j => a % 2 ^ 20 + 16 * j
  let ready := js.all (fun j => ms.all (fun m =>
    match m with
    | some q => (decide (0x80000 ≤ at' j) || setHas (s.coreAt q).seenFull (at' j / 16)) && ((s.coreAt q).badWords (at' j)).isEmpty
    | none => true))
  if ready ∧ g ≤ 6 ∧ hFmt (handle0 x) ≠ 15 then
    landedAt s p t y k (js.map (fun j => .window p (hByteAddr (handle0 x) (16 * j))))
      (js.map (fun j => bytesOfNat 16 (groupResult op (hFormat (handle0 x)) g
        (ms.map (Option.map (fun q => bytesAt (s.coreAt q).mem (at' j) 16))))))
  else none

/-- The atomic of an XATM (R299) whose operand has come and whose result granule is empty: the memory word, and the result
granule with the old word and the CAS outcome. -/
def atomicLands (s : State) (p t : Nat) (y : Xfer) (k : Nat) : Option (State → Bool) :=
  let x := y.entry
  let c := s.coreAt p
  let b := hBase (handle0 x)
  match y.firstPlace, atomOf x.instr with
  | some (pa, host), some (op, _) =>
    let old := natOfBytes (s.physBytes host pa 4)
    let r := atomicResult op (hFormat (handle0 x)) old (bytesAt c.mem b 4) (bytesAt c.mem (b + 4) 4)
    let waits := drainsMeet (s.map.fills.filter (fun f => f.phase != s.iris.phase)) host pa 4
    if allFull c b 16 ∧ clean c b 8 ∧ !waits ∧ b % 32 = 0 ∧ b < 0xA0000 ∧ (hFmt (handle0 x) = 0 ∨ hFmt (handle0 x) = 12) ∧
        (host ∨ (!s.memError pa ∧ !s.gddrPoisoned pa 4)) ∧ memWf s.map.gddr ∧ memWf s.map.host then
      (landedAt s p t y k [.window p (b + 16)] [bytesOfNat 4 old ++ bytesOfNat 4 r.2 ++ bytesOfNat 8 0]).map (fun f u =>
        f u && natOfBytes (u.physBytes host pa 4) == r.1.getD old)
    else none
  | _, _ => none

/-- A piece of a row that an XENC pushes (R302, R417): the low 10 bits of its samples join the row; with the last piece of a
whole row it enters the plane's queue. -/
def encoderTakes (s : State) (p : Nat) (y : Xfer) (k : Nat) : Option (State → Bool) :=
  let x := y.entry
  let c := s.coreAt p
  let e := firstAddr x / 2 ^ 48 % 16
  let pl := firstAddr x / 2 ^ 46 % 4
  let h := handle0 x
  let q := (s.codec e).plane pl
  let os := (pieceGranules (hRowBytes h) (k % 65536)).map (fun g => hRowAddr h (k / 65536) (16 * g))
  let row := (if k % 65536 = 0 then [] else q.part) ++
    os.flatMap (fun o => (List.range 8).map (fun i => bytesAt c.mem (o + 2 * i) 2 % 1024))
  if y.pieces.head? ≠ some k ∨ (s.codecCheck c (firstAddr x) h).isSome ∨ os.any (fun o => !c.isFull o) ∨
      os.any (fun o => !(c.badWords o).isEmpty) ∨ 64 ≤ q.rows.length ∨ firstAddr x / 2 ^ 56 % 64 ≠ 3 ∨
      firstAddr x / 2 ^ 62 % 4 ≠ 3 then none
  else if k % 65536 + 1 < (hRowBytes h + 511) / 512 then
    some (fun u => ((u.codec e).plane pl).part == row && ((u.codec e).plane pl).rows == q.rows)
  else if row.length = (s.codec e).rowSamples pl ∧ !q.skip then
    some (fun u => (((u.codec e).plane pl).rows.map (·.samples)) == q.rows.map (·.samples) ++ [row])
  else none

/-- A piece of an XDEC (R302, R424): the next bytes of the plane's output queue, once all that it has still to take are
there. -/
def decoderGives (s : State) (p t : Nat) (y : Xfer) (k : Nat) : Option (State → Bool) :=
  let x := y.entry
  let c := s.coreAt p
  let e := 16 + firstAddr x / 2 ^ 48 % 8
  let q := (s.codec e).plane (firstAddr x / 2 ^ 46 % 4)
  let js := pieceGranules (countHeld x) (k % 65536)
  let pls := js.map (fun j => Place.window c.phys (hByteAddr (handle0 x) (16 * j)))
  if y.pieces.head? ≠ some k ∨ (s.codecCheck c (firstAddr x) (handle0 x)).isSome ∨
      q.bytes.length < countHeld x - 512 * k ∨ firstAddr x / 2 ^ 56 % 64 ≠ 4 ∨ firstAddr x / 2 ^ 62 % 4 ≠ 3 then none
  else landedAt s p t y k pls ((List.range pls.length).map (fun i => (q.bytes.drop (16 * i)).take 16))

/-- A piece of the page bodies of an overlay arrives from staging (R111): its 512 bytes stand in its page, the pages in
ascending order. -/
def overlayPiece (s : State) (p : Nat) (y : Xfer) (k : Nat) : Option (State → Bool) :=
  let c := s.coreAt p
  match s.ovBytes c y 64 (512 * k) 512, c.overlay with
  | .ok bs, some o =>
    (maskPages o.mask.toNat)[k / 8]?.bind (fun n =>
      if memWf c.imem ∧ bs.length = 512 ∧ firstAddr y.entry / 2 ^ 62 % 4 = 3 then some (fun u =>
        readBytes (u.coreAt p).imem (4096 * n + 512 * (k % 8)) 512 == bs &&
        ((u.coreAt p).overlay.map (·.sum)) == some (o.sum + BitVec.ofNat 32 (wordSum bs)))
      else none)
  | _, _ => none

/-- A piece of a transfer that moves granules (R289, R290, R293, R294, R301). -/
def moves (s : State) (p t : Nat) (y : Xfer) (k : Nat) : Option (State → Bool) :=
  (sourceBytes s (s.coreAt p) y.entry k).bind (fun bs =>
    let pls := s.destPlaces (s.coreAt p) y.entry k
    if pls.length = bs.length then landedAt s p t y k pls bs else none)

/-- A transfer of core p has failed with a kind (R286, R287): nothing of it is left, and where it is its first failure the
record names it and the kind. -/
def failedWith (s : State) (p : Nat) (y : Xfer) (kind : Nat) (u : State) : Bool :=
  let x := y.entry
  ((u.coreAt p).xfer x.chan x.xid).map (fun z => (z.pieces, z.failed)) == some ([], true) &&
  (y.counted || ((u.coreAt p).faultRec[x.chan]?.map (fun r => r.toNat % 2 ^ 40)) ==
    ((s.coreAt p).faultRec[x.chan]?.map (fun r => (recordOf r x.xid kind 0xFF 0).toNat % 2 ^ 40)))

/-- The record of an XLAUNCH whose 64 bytes have come (R305, R384): it stands at TAIL, TAIL has gone on by one and the
queue's hart is told; or the launch fails: RESOURCE where the address names no queue or the queue takes no appends, PERM
where it is of another address space, QFULL. -/
def launchLands (s : State) (p t : Nat) (y : Xfer) : Option (State → Bool) :=
  let x := y.entry
  let c := s.coreAt p
  let os := (List.range 4).map (fun j => hRowAddr (handle0 x) 0 (16 * j))
  let failed := fun (kind : Nat) => some (fun (u : State) => failedWith s p y kind u && u.map.gddr == s.map.gddr)
  match y.firstPlace with
  | some (a, host) =>
    if os.any (fun o => !allFull c o 16 || !clean c o 16) ∨ !memWf s.map.gddr ∨ c.xfers[t]? ≠ some y ∨
        c.xfer x.chan x.xid ≠ some y ∨ 4 ≤ x.chan then none
    else match (if host then none else s.queueAt a) with
      | none => failed 10
      | some q =>
        let tail := s.gddrLE (a + 0x10) 4
        let n := s.gddrLE (a + 8) 4
        let at' := s.gddrLE a 8 + 64 * (tail % n)
        if !hartRoom s (q % 8) then none
        else if s.gddrLE (a + 0x1C) 2 / 2 % 2 = 0 then failed 10
        else if s.qAsid a ≠ c.csr.asid.toNat then failed 2
        else if (tail + 2 ^ 32 - s.gddrLE (a + 0x14) 4) % 2 ^ 32 = n then failed 9
        else if at' < a + 0x40 ∧ a < at' + 64 then none
        else some (fun u =>
          readBytes u.map.gddr at' 64 == os.flatMap (fun o => readBytes c.mem o 16) &&
          u.gddrLE (a + 0x10) 4 == (tail + 1) % 2 ^ 32 && ((u.coreAt p).xfers[t]?.map (·.pieces)) == some (y.pieces.erase 0) &&
          toldHart s (q % 8) (fun e => e % 2 ^ 8 == 2 && e / 2 ^ 16 % 2 ^ 16 == q % 2 ^ 16 &&
            e / 2 ^ 32 % 2 ^ 32 == tail) u)
  | none => none

/-- The bytes of a block at its home with those of a contribution joined (R443): a byte first accepted remains. -/
def joined (x : PeerBlock) (first : Nat) (bs : List Byte) (k : Nat) : Byte :=
  if setHas x.arrived k ∨ k < first ∨ first + bs.length ≤ k then memRead x.bytes k else bs.getD (k - first) 0

/-- A byte of the block is tainted, with those of a contribution that arrives poisoned. -/
def joinedTaint (x : PeerBlock) (first n : Nat) (bad : Bool) (k : Nat) : Bool :=
  if setHas x.arrived k ∨ k < first ∨ first + n ≤ k then setHas x.taint k else bad

/-- This device has a rank, and it is one of a block's members (R439). -/
def isRank (s : State) (x : PeerBlock) : Bool :=
  s.peer.myrank.toNat / 2 ^ 8 % 2 == 1 && decide (s.peer.myrank.toNat % 2 ^ 8 < x.nrank)

/-- What a contribution leaves at this device as its block's home (R441, R443, R444): the failure kind that it is answered
with, the results that leave the device, and what holds of the state. The last bytes of a block reduce it, through a tree
of 256 leaves by rank; each member takes its result here or by the port that its entry names; and the block is DONE. -/
def contributed (s : State) (rank b off : Nat) (bs : List Byte) (bad : Bool) :
    Option (Nat × List Output × (State → Bool)) :=
  let x := s.block b
  let n := bs.length
  let first := rank * 2 ^ 24 + off
  let dups := ((List.range' first n).filter (setHas x.arrived)).length
  let counted := fun (k : Nat) (u : State) => u.peer.ndup == s.peer.ndup + BitVec.ofNat 64 k
  match x.state with
  | .idle => some (10, [], fun u => u.peer.blocks == s.peer.blocks && counted 0 u)
  | .done => some (0, [], fun u => u.peer.blocks == s.peer.blocks && counted n u)
  | .collect =>
    if x.nrank ≤ rank ∨ x.size < off + n then some (10, [], fun u => u.peer.blocks == s.peer.blocks && counted 0 u)
    else if !setWfFrom 0 x.arrived ∨ !memWf x.bytes ∨ !setWfFrom 0 x.taint then none
    else if x.arrived.length + (n - dups) ≠ x.nrank * x.size then some (0, [], fun u =>
      let z := u.block b
      counted dups u && z.state == .collect && z.arrived.length == x.arrived.length + (n - dups) &&
      (List.range' first n).all (fun k => setHas z.arrived k && memRead z.bytes k == joined x first bs k &&
        setHas z.taint k == joinedTaint x first n bad k))
    else if 2 < x.op ∨ !(([0, 1, 2, 12] : List Nat).contains x.fmt) ∨ 256 < x.nrank ∨ !memWf s.map.staging ∨ !setWfFrom 0 s.map.stgFull ∨
        !setWfFrom 0 s.map.stgPoison ∨ !memWf s.dist.signals then none
    else
      let f := (Fmt.ofCode x.fmt).getD .fp32
      let offs := (List.range (x.size / 16)).map (16 * ·)
      let leaf := fun (o r : Nat) => some (natOfBytes ((List.range 16).map (fun k => joined x first bs (r * 2 ^ 24 + o + k))))
      let result := fun (o : Nat) => bytesOfNat 16 (groupResult x.op f 8 ((List.range x.nrank).map (leaf o)))
      let spoilt := fun (o : Nat) => (List.range x.nrank).any (fun r => (List.range 8).any (fun k =>
        joinedTaint x first n bad (r * 2 ^ 24 + o + k)))
      let sent := (List.range x.nrank).flatMap (fun r =>
        match (s.rankPort r).filter (· != 0) with
        | none => []
        | some code =>
          (match s.reach code with
           | none => []
           | some q =>
             let base := tabGet s.peer.rankBase r + 0x68000000 + x.rstg
             offs.flatMap (fun o => [0, 8].map (fun h => Output.write q (base + o + h) (((result o).drop h).take 8) (spoilt (o + h)))) ++
               [.peer q { header := BitVec.ofNat 32 (2 + 4 * (s.rank % 256) + 2 ^ 10 * (b % 4096)), payload := bytesOfNat 4 0, ep := false }]))
      some (0, sent, fun u =>
        let z := u.block b
        counted dups u && z == { x with state := .done, arrived := [], bytes := [], taint := [] } &&
        (!((List.range x.nrank).any (fun r => s.rankPort r == some 0)) || offs.all (fun o =>
          let g := (x.rstg + o) / 16
          (List.range 16).any (fun k => !s.stgOwned x.ctx (x.rstg + o + k) 1) ||
          (readBytes u.map.staging (x.rstg + o) 16 == result o && u.stgFull g &&
            (x.rstg % 16 != 0 || u.stgBad g == [0, 1].filter (fun k => spoilt (o + 8 * k)))))) &&
        (if isRank s x ∧ x.rsig ≠ 0xFFFF then
          let bad := offs.any (fun o => (List.range 16).any (fun k => !s.stgOwned x.ctx (x.rstg + o + k) 1 ||
            setHas u.map.stgPoison ((x.rstg + o + k) / 8)))
          u.slotValue x.rsig == (s.slotValue x.rsig + 1) % 2 ^ 32 && bytesAt u.dist.signals (16 * x.rsig + 4) 1 == bit bad
         else u.dist.signals == s.dist.signals))

/-- A piece of an XRDEV (R306, R441, R442): its bytes, poisoned where a source or the link is, reach the block here, or
leave in a CONTRIB message that awaits its acknowledgement; PEER where the home is out of reach. With poison the transfer
has failed, and its piece goes all the same. -/
def contributes (s : State) (p t : Nat) (y : Xfer) (k : Nat) (spoilt : Bool) : Option (State → Bool) :=
  let x := y.entry
  let c := s.coreAt p
  let src := s.sources c x k
  let b := firstAddr x / 2 ^ 24 % 2 ^ 24
  let off := firstAddr x % 2 ^ 24 + 512 * k
  let bs := src.flatMap (fun d =>
    match d with
    | .got l _ => l
    | _ => [])
  let bad := spoilt || src.any (fun d =>
    match d with
    | .got _ l => !l.isEmpty
    | .fail _ => true
    | .wait => false)
  let taken := fun (u : State) =>
    ((u.coreAt p).xfers[t]?.map (·.pieces)) == some (y.pieces.erase k) &&
    (!bad || y.counted || ((u.coreAt p).faultRec[x.chan]?.map (fun r => r.toNat % 2 ^ 40)) ==
      (c.faultRec[x.chan]?.map (fun r => (recordOf r x.xid 4 0xFF 0).toNat % 2 ^ 40)))
  let away := if bad then none else some (fun u => failedWith s p y 12 u && u.out == s.out)
  if src.contains .wait ∨ c.xfers[t]? ≠ some y ∨ c.xfer x.chan x.xid ≠ some y ∨ 4 ≤ x.chan then none
  else match s.rankPort (s.block b).home with
    | none => away
    | some 0 =>
      (match contributed s s.rank b off bs bad with
       | some (0, out, P) => some (fun u => taken u && u.out == s.out ++ out && P u)
       | some (kind, _, P) => if bad then none else some (fun u => failedWith s p y kind u && P u)
       | none => none)
    | some code =>
      (match s.reach code with
       | none => away
       | some q => some (fun u => taken u &&
           u.out == s.out ++ [.peer q { header := BitVec.ofNat 32 (4 * (s.rank % 256) + 2 ^ 10 * (b % 4096))
                                        payload := bytesOfNat 4 (off % 2 ^ 24) ++ bs, ep := bad }] &&
           u.peer.waiting == s.peer.waiting ++ [{ core := p, chan := x.chan, id := x.xid, piece := k, block := b, offset := off }] &&
           ((u.coreAt p).xfers[t]?.map (·.acks)) == some (y.acks ++ [k])))

/-- The words that a link's error spoils (R431, R345): the transfer fails with POISON, and the granules of the piece are
poisoned where they come to, but those that were full. -/
def spoils (s : State) (p t : Nat) (y : Xfer) (k : Nat) : Option (State → Bool) :=
  let x := y.entry
  let c := s.coreAt p
  let pls := s.destPlaces c x k
  let sound := pls.all (fun pl =>
    match pl with
    | .window q o => decide (q < 1600 ∧ o % 16 = 0) && setWfFrom 0 (s.coreAt q).full && setWfFrom 0 (s.coreAt q).poison
    | .staging _ => setWfFrom 0 s.map.stgFull && setWfFrom 0 s.map.stgPoison)
  if !sound ∨ c.xfers[t]? ≠ some y ∨ c.xfer x.chan x.xid ≠ some y ∨ 4 ≤ x.chan then none
  else some (fun u => failedWith s p y 4 u && pls.all (fun pl => s.placeFull pl ||
    (match pl with
     | .window q o =>
       if o < 0xA1000 then setHas (u.coreAt q).poison (o / 8) && setHas (u.coreAt q).poison (o / 8 + 1)
       else [0, 1].all (fun h => (u.coreAt q).heldWrites.any (fun w => w.off == o + 8 * h && w.poisoned))
     | .staging g => u.stgFull g && u.stgBad g == [0, 1])))

/-- The entry of a channel and identifier is marked finished, the first one begun (R277). -/
def markFinished (ch : Nat) (id : Word) : List Entry → List Entry
  | [] => []
  | x :: l =>
    if x.stage = .begun ∧ xferChan x.instr = some ch ∧ x.xid = id then { x with stage := .finished } :: l
    else x :: markFinished ch id l

/-- XDONE of a channel (R278, R502): where it is behind XNEXT it goes to the first identifier, counted up from its value,
that is outstanding, or to XNEXT. -/
def frontier (next now : Word) (ids : List Word) : Word :=
  let gap := (next - now).toNat
  if gap = 0 ∨ 2 ^ 31 ≤ gap then now
  else now + BitVec.ofNat 32 (ids.foldl (fun m id => min m (id - now).toNat) gap)

/-- A begun transfer of which nothing remains (R277). -/
def nothingLeft (y : Xfer) : Bool :=
  y.pieces.isEmpty && y.deferred.isEmpty && y.acks.isEmpty && (y.failed || translated y) &&
  (match y.entry.instr with
   | .xovl .. => y.failed || y.stage == 2
   | _ => true)

/-- The steps of the exchange engine (R276, R277, R289, R304, R307 to R309, R111) that are due, with what holds of the
state that they leave. -/
def exchangeEvent (i : Instr) (s : State) : Option (State → Bool) :=
  match i with
  | .eInstructionBegin p =>
    let c := s.coreAt p
    let arm := fun (k n : Nat) =>
      some (isState (s.setCore p (Core.complete { c with csr := { c.csr with
        land := c.csr.land.setIfInBounds k ((c.csr.land[k]?.getD 0) + BitVec.ofNat 24 n) } } .E)))
    if !exchangeGoes s p then none
    else match firstUnbegun c with
      | none => none
      | some x =>
        let fault := if x.handles.any (fun h => hD0 h * hD1 h * hD2 h == 0) then none else localFault x
        if !conditionMet c x then none
        else match fault with
          | some (sub, a) =>
            (match x.instr with
             | .xwait .. => none
             | .xwaitL .. => none
             | .xfence .. => none
             | _ => some (isState (s.setCore p { c with engE := { c.engE with
                 mpc := 0, frozen := true, report := some { code := 0x0A, sub := sub, etval := BitVec.ofNat 32 a } } })))
          | none =>
            (match x.instr with
             | .xarm .. => arm (x.scalars.getD 0 0) (x.scalars.getD 1 0)
             | .xarmImm .. => arm (x.scalars.getD 0 0) (x.scalars.getD 1 0)
             | .xwait .. => none
             | .xwaitL .. => none
             | .xfence .. => none
             | i => if (xferChan i).isSome then begins s p x else none)
  | .transferPieceLanding p t k =>
    let c := s.coreAt p
    (match c.xfers[t]? with
     | none => none
     | some y =>
       let x := y.entry
       if 1600 ≤ p ∨ c.phys ≠ p ∨ !y.pieces.contains k then none
       else if comesAfter s c y then some (isState s)
       else if !s.viewsThere c x k then none
       else match waitingFailure y with
       | some kind =>
         let stops := match x.instr with
           | .xpf .. => false
           | .xovl .. => false
           | _ => true
         if !stops ∨ c.xfer x.chan x.xid ≠ some y ∨ 4 ≤ x.chan then none else some (failedWith s p y kind)
       | none =>
         if !translated y then none
         else match x.instr with
         | .xsig _ _ _ m =>
           let n := x.scalars.getD 0 0
           let v := x.scalars.getD 1 0
           if n < 65536 ∧ s.slotCtx n = c.ctx ∧ memWf s.dist.signals then some (fun u =>
             u.slotValue n == (if m = 1 then v else s.slotValue n + v) % 2 ^ 32 &&
             readLE u.dist.signals (16 * n + 8) 8 == s.time.toNat)
           else none
         | .xput .. => moves s p t y k
         | .xget .. => moves s p t y k
         | .xbc .. => moves s p t y k
         | .xld .. => moves s p t y k
         | .xst .. => moves s p t y k
         | .xgth .. => moves s p t y k
         | .xldg _ _ _ _ m => reduces s p t y k m.toNat
         | .xatmGrp .. => atomicLands s p t y k
         | .xatmGang .. => atomicLands s p t y k
         | .xatmDev .. => atomicLands s p t y k
         | .xatmSys .. => atomicLands s p t y k
         | .xenc .. => encoderTakes s p y k
         | .xdec .. => decoderGives s p t y k
         | .xovl .. => overlayPiece s p y k
         | .xlaunch .. => if k = 0 then launchLands s p t y else none
         | .xrdev .. => contributes s p t y k false
         | _ => none)
  | .transferComplete p =>
    let c := s.coreAt p
    (match c.xfers.find? nothingLeft with
     | some y =>
       let x := y.entry
       let q := markFinished x.chan x.xid c.engE.queue
       let n := (q.takeWhile (fun e => e.stage == .finished)).length
       let ids := ((q.drop n).filter (fun e => e.stage != .finished && xferChan e.instr == some x.chan)).map (·.xid)
       if 1600 ≤ p ∨ 4 ≤ x.chan then none
       else some (fun t =>
         let d := t.coreAt p
         d.xfers == c.xfers.filter (fun z => !(z.entry.chan == x.chan && z.entry.xid == x.xid)) &&
         d.engE.queue == q.drop n && d.engE.done == c.engE.done + BitVec.ofNat 32 n &&
         d.csr.xdone[x.chan]? == some (frontier (vec4 c.csr.xnext x.chan) (vec4 c.csr.xdone x.chan) ids) &&
         d.csr.vstat == (if y.void then c.csr.vstat ||| 2 else c.csr.vstat) &&
         t.map.backs.length == s.map.backs.length + (match x.instr with
           | .xst .. => if y.failed ∨ countHeld x = 0 then 0 else 1
           | _ => 0))
     | none => none)
  | .xwaitSatisfied p =>
    let c := s.coreAt p
    if !exchangeGoes s p then none
    else match firstUnbegun c with
      | none => none
      | some x =>
        (match x.instr with
         | .xwaitL .. => if (c.csr.land[x.scalars.getD 0 0]?.getD 0) = 0 then some (isState (s.setCore p (c.complete .E))) else none
         | .xwait _ _ ch =>
           if c.idDone ch.toNat (BitVec.ofNat 32 (x.scalars.getD 0 0)) ∧
               bits (c.faultRec[ch.toNat]?.getD 0).toNat 63 48 = 0 then some (isState (s.setCore p (c.complete .E)))
           else none
         | _ => none)
  | .xfenceDone p =>
    let c := s.coreAt p
    if !exchangeGoes s p then none
    else match firstUnbegun c with
      | none => none
      | some x =>
        (match x.instr with
         | .xfence _ ch =>
           if c.idDone ch.toNat (BitVec.ofNat 32 (x.scalars.getD 0 0) - 1) then some (isState (s.setCore p (c.complete .E)))
           else none
         | _ => none)
  | .xovlHeaderArrives p =>
    let c := s.coreAt p
    (match c.firstOverlay with
     | some y =>
       if 1600 ≤ p ∨ c.phys ≠ p ∨ y.stage ≠ 0 ∨ !translated y ∨ (waitingFailure y).isSome ∨ comesAfter s c y ∨
           addrKind y.entry.addr ≠ 257 then none
       else match s.ovBytes c y 0 0 64 with
         | .ok h =>
           if ovAccepted h (y.entry.priv && c.csr.supok) then some (fun t =>
             let k := t.coreAt p
             (k.overlay.map (·.mask)) == some (BitVec.ofNat 16 (ovPages h)) &&
             (k.overlay.map (·.sum)) == some 0 &&
             k.pageValid == (c.openOverlay h).pageValid && k.pageExec == (c.openOverlay h).pageExec)
           else none
         | .error _ => none
     | none => none)
  | .xovlImageComplete p =>
    let c := s.coreAt p
    (match c.firstOverlay, c.overlay with
     | some y, some o =>
       if 1600 ≤ p ∨ y.stage ≠ 1 ∨ !y.pieces.isEmpty ∨ !translated y ∨ o.sum ≠ o.check then none
       else some (fun t =>
         let k := t.coreAt p
         k.overlay.isNone && k.pageValid == c.pageValid ||| o.mask &&
         k.pageExec == (c.pageExec &&& ~~~o.mask) ||| o.exec && k.imem == c.imem)
     | _, _ => none)
  | .meshLinkUncorrectableError p t k =>
    let c := s.coreAt p
    (match c.xfers[t]? with
     | some y =>
       let hit := match y.entry.instr with
         | .xrdev .. => contributes s p t y k true
         | _ => spoils s p t y k
       if 1600 ≤ p ∨ c.phys ≠ p ∨ !y.pieces.contains k then none
       else if comesAfter s c y then some (isState s)
       else if !translated y ∨ (waitingFailure y).isSome ∨ !s.viewsThere c y.entry k ∨
           (s.sources c y.entry k).contains .wait then none
       else hit.map (fun P u => u.mgmt.linkErrors == s.mgmt.linkErrors + 1 && P u)
     | none => none)
  | .holdUntilEntryFree p e =>
    let c := s.coreAt p
    (match e, c.engM.pushing, c.engM.queue.head? with
     | .M, some (n, _), some x =>
       if mayStep s p && headReady c c.engM x && decide ((c.queue n).length < 8) then
         (match x.instr, afterMatrix c x with
          | .mstat _ m, some k => if m.toNat = n then some (isState (s.setCore p k)) else none
          | _, _ => none)
       else none
     | _, _, _ => none)
  | _ => none

/-- Granule number k of those that drains have left: the drain, the granule, and where it lies in memory. -/
def drainNow (ds : List Drain) (k : Nat) : Option (Drain × Nat × Nat × Bool) :=
  (drainAt ds k).bind (fun d => (d.1.place d.2).map (fun a => (d.1, d.2, a.1, a.2)))

/-- The TLB entries that a shoot-down of kind 0 to 3 leaves (R357, R360). -/
def tlbLeft (s : State) (kind : Nat) (force : Bool) (asid : Nat) : List TlbEntry :=
  let lo := s.map.sdva.toNat % 2 ^ 52 / 2 ^ 16 * 2 ^ 16
  let hi := lo + 2 ^ 16 * max 1 s.map.sdlen.toNat
  s.map.tlb.filter (fun e => !(match kind with
    | 0 => e.asid == asid && decide (e.va ≤ lo ∧ lo < e.va + e.size)
    | 1 => e.asid == asid && decide (e.va < hi ∧ lo < e.va + e.size) && (force || !e.anchor)
    | 2 => e.asid == asid && (force || !e.anchor)
    | _ => force || !e.anchor))

/-! ## Translation (R353 to R355) -/

/-- The levels of a table from the root: the lowest and the highest address bit of each one's index, and the alignment of
the tables that its entries point to (R354). -/
def levels : List (Nat × Nat × Nat) := [(39, 51, 4096), (30, 38, 4096), (21, 29, 256), (16, 20, 0)]

/-- A walk (R354) from a table through the levels left: the size of the page and its entry, or the failure kind. -/
def tableWalk (s : State) (va : Nat) : List (Nat × Nat × Nat) → Nat → Except Nat (Nat × Nat)
  | [], _ => .error 1
  | (lo, hi, next) :: rest, tab =>
    let a := tab + 8 * (va / 2 ^ lo % 2 ^ (hi - lo + 1))
    let e := s.gddrLE a 8
    let frame := e / 2 ^ 16 * 2 ^ 16
    let below := e / 2 ^ 8 * 2 ^ 8
    if s.gddrPoisoned a 8 ∨ s.memError a then .error 11
    else if e % 2 = 0 then .error 1
    else if e / 2 % 2 = 1 then
      if lo = 39 ∨ e / 2 ^ 8 % 2 ^ 8 ≠ 0 ∨ e / 4 % 4 = 3 ∨ frame % 2 ^ lo ≠ 0 ∨ (e / 2 ^ 7 % 2 = 0 ∧ gddrSize ≤ frame) then
        .error 1
      else .ok (2 ^ lo, e)
    else if next = 0 ∨ e / 4 % 2 ^ 6 ≠ 0 ∨ below % next ≠ 0 ∨ gddrSize ≤ below then .error 1
    else tableWalk s va rest below

/-- The translation of an address for a map unit and an ASID (R353, R354): through the ASID's entry, cached or read, to the
page. -/
def translation (s : State) (u asid va : Nat) : Except Nat (Nat × Nat) :=
  let a := s.map.atbNow.toNat + 16 * asid
  let e := match s.cachedAsid u asid with
    | some e => some e.1
    | none => if s.gddrPoisoned a 16 ∨ s.memError a then none else some (s.gddrLE a 8)
  match e with
  | none => .error 11
  | some e =>
    let root := e / 2 ^ 16 % 2 ^ 48 * 2 ^ 16
    if e % 2 = 0 then .error 2
    else if e / 2 ^ 7 % 2 ^ 9 ≠ 0 ∨ gddrSize ≤ root then .error 1
    else tableWalk s va levels root

/-- A transfer writes the range that it translates, and may name host memory there (R294, R300, R355). -/
def writesRange (i : Instr) : Bool :=
  match i with
  | .xst .. => true
  | i => (atomOf i).isSome
def hostAllowed (i : Instr) : Bool :=
  match atomOf i with
  | some (op, _) => op == 0 || op == 4 || op == 5
  | none => true

/-- What a page's translation gives an access (R355): its physical place, its kind, or the failure kind. -/
def pageOf (i : Instr) (va : Nat) : Except Nat (Nat × Nat) → PageResult
  | .error k => .fail k
  | .ok (size, e) =>
    let host := e / 2 ^ 7 % 2 = 1
    if (writesRange i ∧ e / 2 ^ 4 % 2 = 1) ∨ (host ∧ !hostAllowed i) then .fail 2
    else .ok (e / 2 ^ 16 % 2 ^ 48 * 2 ^ 16 + va % size) host (e / 4 % 4)

/-- The translation that the TLB of a unit holds for an address. -/
def tlbHolds (t : State) (u asid va : Nat) : Option Nat :=
  (t.map.tlb.find? (fun e => e.unit == u && e.asid == asid && decide (e.va ≤ va ∧ va < e.va + e.size))).map (·.leaf)

/-- A walk has ended (R354 to R358): the unit's TLB holds the page's entry, and the transfer that waits has its page or has
failed, with its record. -/
def walkEnds (s : State) (w : Walk) (t : State) : Bool :=
  let r := translation s w.unit w.asid w.va
  t.map.walks.length ≤ s.map.walks.length &&
  ((tlbHolds s w.unit w.asid w.va).isSome || tlbHolds t w.unit w.asid w.va == (match r with
    | .ok (_, e) => some e
    | .error _ => none)) &&
  (match (s.coreAt w.core).xfer w.chan w.id with
   | none => t.map.walks == s.map.walks.erase w
   | some y =>
     match y.pages.find? (fun m => m.res == .waiting && m.va == w.va), (t.coreAt w.core).xfer w.chan w.id with
     | none, _ => t.map.walks == s.map.walks.erase w
     | some _, none => false
     | some m, some z =>
       match pageOf y.entry.instr m.va r with
       | .fail k =>
         if comesAfter s (s.coreAt w.core) y then
           z.failed == y.failed && !z.pieces.isEmpty && t.map.walks == s.map.walks.erase w &&
           z.pages.any (fun n => n.off == m.off && n.res == .fail k) &&
           (t.coreAt w.core).faultRec == (s.coreAt w.core).faultRec
         else z.failed && t.map.walks == s.map.walks.erase w &&
           (y.counted || (match y.entry.instr with
             | .xovl .. => true
             | _ => ((t.coreAt w.core).faultRec[w.chan]?) ==
                 ((s.coreAt w.core).faultRec[w.chan]?).map (fun q => recordOf q w.id k 0xFF m.va)))
       | res => z.pages.all (fun n => n.off != m.off || n.res == res))

/-- The state holds each core once, under its own number. -/
def coresSound (s : State) : Bool :=
  setWfFrom 0 (s.others.map (·.1)) && !(s.others.map (·.1)).contains s.core.phys && s.others.all (fun x => x.2.phys == x.1)

/-- The context of the task that core p holds. -/
def heldCtx (s : State) (p : Nat) : Option Nat := (s.coreAt p).task.map (·.ctx)

/-- A context fault was reported to hart 0 for context c (R378, R411). -/
def faultTold (t : State) (c : Nat) : Bool :=
  ((t.hart 0).events ++ (t.dist.stalled.filter (fun x => x.1 == 0)).map (·.2)).any (fun e =>
    e.toNat % 2 ^ 8 == 4 && e.toNat / 2 ^ 8 % 2 ^ 6 == c % 64)

/-- Core p is ABSENT and holds no task any more, and its context's fault was reported (R370, R371, R411). -/
def lost (s t : State) (p : Nat) : Bool :=
  match heldCtx s p with
  | some c => (t.coreAt p).pst == .absent && (t.coreAt p).task.isNone && faultTold t c
  | none => true

/-- The steps of the memory ports that are due (R292, R294, R344 to R346, R353 to R361), with what holds of the state that
they leave; a request before stage 1 is an Unsupported Request (R465). -/
def memoryEvent (i : Instr) (s : State) : Option (State → Bool) :=
  let shot := fun (kind : Nat) (force : Bool) (asid : Nat) (f : State → Bool) =>
    if !s.inStage 1 then some (isState s.unsupported)
    else if s.map.sdBusy then some (isState { s with map := { s.map with sdRej := true } })
    else some (fun (t : State) => t.map.sdBusy && !t.map.sdDone && !t.map.sdDrained &&
      t.map.sdBefore == s.map.fills ++ s.map.backs && t.map.tlb == tlbLeft s kind force asid && f t)
  match i with
  | .walkEnd k =>
    (match s.map.walks[k]? with
     | none => none
     | some w => if w.chan < 4 then some (walkEnds s w) else none)
  | .fillGranuleArrives k =>
    (match drainNow s.map.fills k with
     | some (d, j, pa, host) =>
       let own := fun (ds : List Drain) (n : Nat) => ds.any (fun e => e.core == d.core && decide (e.phase.toNat < n))
       if own s.map.backs (d.phase.toNat + 1) ∨ own s.map.fills d.phase.toNat then some (isState s)
       else if !s.fillDue d j pa host ∨ !memWf s.map.staging ∨ !setWfFrom 0 s.map.stgFull ∨ !setWfFrom 0 s.map.stgPoison then none
       else if host ∨ !s.memError pa then some (fun t =>
         t.stgFull (d.slot / 16 + j) && readBytes t.map.staging (16 * (d.slot / 16 + j)) 16 == s.physBytes host pa 16 &&
         t.stgBad (d.slot / 16 + j) == (if !host && s.gddrPoisoned pa 16 then [0, 1] else []) &&
         t.map.gddr == s.map.gddr)
       else some (fun t =>
         t.map.fills == s.map.fills.erase d &&
         d.left.all (fun i => t.stgFull (d.slot / 16 + i) &&
           (s.stgFull (d.slot / 16 + i) || t.stgBad (d.slot / 16 + i) == [0, 1])) &&
         ((t.coreAt d.core).faultRec[d.chan]?.map (fun r => r.toNat % 2 ^ 40)) ==
           ((s.coreAt d.core).faultRec[d.chan]?.map (fun r => (recordOf r d.id 11 0xFF 0).toNat % 2 ^ 40)))
     | none => none)
  | .writeBackDrain k =>
    (match drainNow s.map.backs k with
     | some (d, j, pa, false) =>
       let g := d.slot / 16 + j
       if !s.drainDue d pa false ∨ !memWf s.map.gddr ∨ !setWfFrom 0 s.map.stgFull ∨ !setWfFrom 0 s.map.gddrPoison then none
       else if (s.stgBad g).isEmpty then
         some (fun t =>
           readBytes t.map.gddr pa 16 == readBytes s.map.staging (16 * g) 16 && !t.stgFull g)
       else if setHas s.map.gddrPoison (pa / 64) ∨ s.poisonCount (portOf (pa / 64 * 64)) < 4096 then
         some (fun t =>
           readBytes t.map.gddr pa 16 == readBytes s.map.staging (16 * g) 16 && !t.stgFull g &&
           setHas t.map.gddrPoison (pa / 64))
       else none
     | _ => none)
  | .shootdownPage a => shot 0 false a.toNat (fun _ => true)
  | .shootdownRange f a => shot 1 f a.toNat (fun _ => true)
  | .shootdownAsid f a => shot 2 f a.toNat (fun t => t.map.asidCache.all (fun x => x.2.1 != a.toNat))
  | .shootdownAll f => shot 3 f 0 (fun t => t.map.asidCache.isEmpty && t.map.atbNow == s.map.atb)
  | .counterFlush =>
    if !s.inStage 1 then some (isState s.unsupported)
    else if s.map.sdBusy then some (isState { s with map := { s.map with sdRej := true } })
    else some (fun t => t.map.sdBusy && t.map.tlb == s.map.tlb.map (fun e => { e with count := 0 }))
  | .shootdownDone =>
    if s.map.sdBusy ∧ s.map.sdWait ≠ some s.iris.phase.toNat then
      some (isState { s with map := { s.map with
        sdBusy := false, sdDone := true, sdWait := none, sdSeq := s.map.sdSeq + 1 } })
    else none
  | .shootdownDrained =>
    let under := fun (d e : Drain) => (d.core, d.chan, d.id, d.phase, d.slot) == (e.core, e.chan, e.id, e.phase, e.slot)
    if s.map.sdDone ∧ !s.map.sdDrained ∧
        s.map.sdBefore.all (fun d => (s.map.fills ++ s.map.backs).all (fun e => !under d e)) ∧
        s.map.sdStores.all (fun k => (s.coreAt k.1).xfers.all (fun y => !(y.entry.chan == k.2.1 && y.entry.xid == k.2.2))) then
      some (isState { s with map := { s.map with sdDrained := true, sdBefore := [], sdStores := [] } })
    else none
  | .sramBitError site =>
    let counted : State := { s with mgmt := { s.mgmt with corrected := s.mgmt.corrected + 1 } }
    (match site with
     | .coreLocal p a ok =>
       let c := s.coreAt p
       if 1600 ≤ p ∨ 0xA1000 ≤ a then none
       else some (isState (if ok then counted else s.setCore p { c with poison := setAdd c.poison (a / 8) }))
     | .coreImem p a ok =>
       let c := s.coreAt p
       if 1600 ≤ p ∨ 0x10000 ≤ a then none
       else some (isState (if ok then counted else s.setCore p { c with imemPoison := setAdd c.imemPoison (a / 8) }))
     | .staging a ok =>
       if 0x8000000 ≤ a then none
       else some (isState (if ok then counted
         else { s with map := { s.map with
             stgPoison := setAdd s.map.stgPoison (a / 8), stgErr := setAdd s.map.stgErr (a / 8) } })))
  | .registerParityError p => if p < 1600 ∧ coresSound s then some (fun t => lost s t p) else none
  | _ => none

/-- A participant whose READY, or XREADY, has reached the Iris (R366). -/
def seen (s : State) (st : PhaseState) (p : Nat) : Bool := (s.coreAt p).pst == st && (s.coreAt p).sigLeft == 0

/-- A member's part of its task ends at this boundary (R391): it is XREADY at the SYNC at its end, in user mode, or it is
being pre-empted. -/
def partEnds (c : Core) : Bool :=
  match c.task with
  | none => false
  | some f => c.pst == .xready && (f.preempting || (match c.held with
      | some { instr := .sync .., .. } => c.pc == f.endpc && !c.csr.priv
      | _ => false))

/-- The sliced gang of which core p runs one logical core after another (R395), where PREEMPT does not end it whole. -/
def slotOf (s : State) (p : Nat) : Option Gang :=
  if s.sliced (s.coreAt p) && !((s.coreAt p).task.map (·.preempting)).getD false then s.gangOf p else none

/-- A core of a sliced gang has logical cores beside l that have not ended (R391, R395). -/
def otherSlots (g : Gang) (p l : Nat) : Bool :=
  (g.members.zip (List.range' g.origin g.members.length)).any (fun q => q.1 == p && q.2 != l && !setHas g.ended q.2)

/-- Every core of a gang is at ITER in this exchange with nothing under way, and the gang may be pre-empted (R406). -/
def atIter (s : State) (on : NatSet) (g : Gang) : Bool :=
  !g.nopre && g.live.all (fun p =>
    let c := s.coreAt p
    setHas on p && c.iterMark && c.engE.queue.isEmpty && c.xfers.isEmpty && c.queues.toList.all (·.isEmpty))

/-- A context's checkpoint is due in the exchange that begins (R452): deterministic mode, N exchanges since the last one or
since its first launch, and every participant with an empty E queue and empty queue registers. -/
def checkpointDue (s : State) (c : Nat) : Bool :=
  let d := s.debugCtx c
  let n := d.ckctl.toNat % 2 ^ 16
  let ps := (s.coresOf c).filter (setHas s.iris.pmask)
  s.iris.ictl.toNat % 2 == 1 && n != 0 && !ps.isEmpty && decide (n ≤ (d.begun.map (· + 1)).getD 0) &&
  ps.all (fun p => (s.coreAt p).engE.queue.isEmpty && (s.coreAt p).queues.toList.all (·.isEmpty))

/-- A transfer is in flight (R311): something of it remains, and not only what is deferred. -/
def flies (y : Xfer) : Bool :=
  !nothingLeft y && !(y.pieces.isEmpty && y.acks.isEmpty && !y.deferred.isEmpty)

/-- What the exchange time-out does to the transfers of core p (R311, R370): each one in flight has failed, with nothing
left; where it is the only one, no XLDG, and its channel's record is clear, the record names it with TIMEOUT, or PEER where
an XRDEV awaits acknowledgements alone (R441). -/
def timedOut (s : State) (p : Nat) (t : State) : Bool :=
  let c := s.coreAt p
  let d := t.coreAt p
  (c.xfers.filter flies).all (fun y =>
    ((d.xfer y.entry.chan y.entry.xid).map (fun z => (z.pieces, z.failed))) == some ([], true)) &&
  (match c.xfers.filter flies with
   | [y] =>
     let kind := match y.entry.instr with
       | .xrdev .. => if y.pieces.isEmpty then 12 else 5
       | _ => 5
     (match y.entry.instr with
      | .xldg .. => true
      | _ => y.counted || c.xfers.any (fun z => z != y && z.entry.chan == y.entry.chan && z.entry.xid == y.entry.xid) ||
          c.faultRec[y.entry.chan]? != some 0 ||
          (d.faultRec[y.entry.chan]?.map (fun r => r.toNat % 2 ^ 40)) == some (y.entry.xid.toNat + 2 ^ 32 * kind))
   | _ => true)

/-- The steps of the Iris that are due (R363 to R371, R374), with what holds of the state that they leave. -/
def irisEvent (i : Instr) (s : State) : Option (State → Bool) :=
  let r := s.iris
  let odd := r.phase.toNat % 2 = 1
  let det := r.ictl.toNat % 2 = 1
  let ready := r.pmask.any (seen s .ready)
  let timersRun := !s.stilled && r.pmask.all (fun p => !(s.coreAt p).halted)
  match i with
  | .phaseAdvanceOdd =>
    let marked := fun p => setHas r.smask p || (s.coreAt p).pst == .straggler
    let on := r.pmask.filter (fun p => !setHas (r.pmask.filter marked) p)
    if coresSound s ∧ !odd ∧ r.deliver.isEmpty ∧ !s.stilled ∧ s.map.backs.isEmpty ∧
        (ready ∨ (r.pmask.isEmpty ∧ r.wdogNow.toNat < r.wtimer)) ∧
        r.pmask.all (fun p => seen s .ready p || marked p) then
      some (fun t => t.iris == { r with
        phase := r.phase + 1, ctoNow := r.cto, xtoNow := r.xto, wdogNow := r.wdog, slimNow := r.slim
        ctimer := 0, xtimer := 0, wtimer := 0, fresh := true, expiries := 0, sweep := none, deliver := r.pmask, busLeft := 4
        smask := r.pmask.filter marked, inExchange := on } &&
        on.all (fun p => (t.coreAt p).dbg.sig == 0) &&
        s.dist.gangs.all (fun g => !(g.flagged && atIter s on g) || g.live.all (fun p => (t.coreAt p).pend.preempt)) &&
        (List.range 64).all (fun c =>
          (t.debugCtx c).ckidx == (s.debugCtx c).ckidx + (if checkpointDue s c then 1 else 0) &&
          (!checkpointDue s c || (((s.coresOf c).filter (setHas r.pmask)).all (fun p =>
            (t.coreAt p).pend.step.any (fun x => x.1 == 2))))))
    else none
  | .quietSweepBegin =>
    if s.quiet ∧ r.sweep.isNone then some (isState { s with iris := { r with sweep := some 16 } }) else none
  | .phaseAdvanceEven e =>
    if s.quiet ∧ r.sweep = some 0 then some (fun t =>
      let full := min (s.power.pburst * 1000) (s.power.account + s.power.plim * (s.time.toNat - s.power.tlast.toNat))
      t.iris.phase == r.phase + 1 && t.iris.smask.isEmpty && t.iris.inExchange.isEmpty && t.power.account == full - e &&
      t.dist.eallowd == BitVec.ofNat 32 (min ((full - e) / 1000) (2 ^ 32 - 1)) &&
      r.inExchange.all (fun p => !(partEnds (s.coreAt p)) || !(s.dist.heldMirror.isEmpty || !s.det) ||
        (match slotOf s p with
         | none => (t.coreAt p).pst == .absent && (t.coreAt p).task.isNone
         | some g => decide (r.inExchange.length ≠ 1) || (
           if otherSlots g p (s.coreAt p).csr.coreL.toNat then
             (t.coreAt p).pst == .xready && (t.coreAt p).task == (s.coreAt p).task &&
             t.dist.gangs.any (fun h => setHas h.ended (s.coreAt p).csr.coreL.toNat)
           else (t.coreAt p).pst == .absent && (t.coreAt p).task.isNone))))
    else none
  | .phaseBusDelivery p =>
    if p < 1600 ∧ setHas r.deliver p ∧ r.busLeft = 0 ∧ !s.stilled then some (fun t =>
      let b := s.coreAt p
      let c := t.coreAt p
      if !odd then c.pst == .compute && c.csr.phase == r.phase && c.csr.eallow == s.dist.eallowd
      else if !setHas r.smask p then
        c.pst == .exchange && c.csr.phase == r.phase && c.csr.eallow == s.dist.eallowd && !c.iterMark
      else
        let new := b.pst = .compute ∨ (b.pst = .ready ∧ b.csr.strk = 0)
        let k := if new then min 255 (b.csr.strk.toNat + 1) else b.csr.strk.toNat
        let slim := r.slimNow.toNat % 256
        c.pst == (if b.pst = .compute then .straggler else b.pst) && c.csr.phase == b.csr.phase &&
        c.csr.strk.toNat == k &&
        c.pend.straggle == (b.pend.straggle || decide (new ∧ slim ≠ 0 ∧ slim ≤ k)))
    else none
  | .computeTimeoutExpiry =>
    if !det ∧ wbit r.ictl 1 ∧ !odd ∧ timersRun ∧ r.ctimer = max 1 r.ctoNow.toNat then
      let new := r.pmask.filter (fun p => !seen s .ready p && (s.coreAt p).pst != .straggler &&
        ((s.coreAt p).pst != .ready || (s.coreAt p).csr.strk == 0))
      some (isState { s with iris :=
        if ready then { r with smask := new.foldl setAdd r.smask, nstrag := r.nstrag + BitVec.ofNat 64 new.length
                               ctimer := max 1 r.ctoNow.toNat + 1 }
        else { r with ctimer := 0, fresh := true } })
    else none
  | .exchangeTimeoutExpiry =>
    let late := r.inExchange.filter (fun p => (s.coreAt p).pst != .xready)
    if coresSound s ∧ !det ∧ wbit r.ictl 2 ∧ odd ∧ timersRun ∧ r.xtimer = max 1 r.xtoNow.toNat then
      some (fun t => t.iris.nxexp == r.nxexp + 1 && t.iris.xtimer == 0 && t.iris.fresh &&
        t.iris.expiries == r.expiries + 1 &&
        (if r.expiries = 0 then
          (s.cores.map (·.phys)).all (fun p => timedOut s p t) && late.all (fun p => (t.coreAt p).pend.extime == some 0)
        else late.all (lost s t)))
    else none
  | .watchdogExpiry =>
    let behind := if odd then r.inExchange.filter (fun p => (s.coreAt p).pst != .xready || !(s.coreAt p).xfers.isEmpty)
      else r.pmask.filter (fun p => !seen s .ready p)
    if coresSound s ∧ det ∧ timersRun ∧ r.wdogNow ≠ 0 ∧ r.wtimer = r.wdogNow.toNat then
      some (fun t => t.iris.wtimer == r.wdogNow.toNat + 1 && t.iris.phase == r.phase &&
        behind.all (lost s t))
    else none
  | .ictlWrite v =>
    let bad := decide (v.toNat % 2 ≠ r.ictl.toNat % 2) && !r.pmask.isEmpty
    if !s.inStage 2 then some (isState s.unsupported)
    else some (isState { s with iris := { r with
      ictl := if bad then (v &&& 6) ||| (r.ictl &&& 1) else v &&& 7, rej := r.rej || bad } })
  | _ => none

end Sys2Proof.Claims

/-! ## Steps of the work distributor -/

namespace Sys2Proof.Claims
open Sys2Proof.Machine

/-- The distributor is given. -/
def isDist (s : State) (d : Distributor) : State → Bool := isState { s with dist := d }

/-- The entry of the sorter with the least key, the first of equal ones (R397). -/
def leastKey (l : List (Nat × Word × Bool)) : Option (Nat × Word × Bool) := l.find? (fun e => l.all (fun f => e.1 ≤ f.1))

/-- A board's register state but for what tiles released: plane 0, plane 1, and the passes. -/
def planesAre (n : Nat) (p0 p1 : NatSet) (k : BitVec 16) : State → Bool := fun t =>
  (t.board n).plane0 == p0 && (t.board n).plane1 == p1 && (t.board n).passes == k

/-- A predecessor signal that reaches a graph node while no other waits (R402): a misaligned address sets GBAD, address 0
names none, a node with predecessors left counts down, and a task node whose last predecessor this is appends its record
to a queue with room. While no hart runs the microcode the signal waits (R464; log 111). -/
def signalled (s : State) (a sd : Nat) : Option State :=
  let d := s.dist
  let n := s.gddrLE (a + 2) 2
  let pending := s.gddrLE (a + 4) 4
  let zero := s.gddrLE (a + 1) 1 == 0 && s.gddrLE (a + 0x3A) 6 == 0
  if a % 64 ≠ 0 then some { s with dist := { d with gbad := true } }
  else if !(s.inStage 2 && d.run) then
    some { s with dist := { d with graphSignals := d.graphSignals ++ (if a = 0 then [] else [(a, sd)]) } }
  else if !d.graphSignals.isEmpty then none
  else if a = 0 then some s
  else if n = 0 ∨ s.gddrLE a 1 < 1 ∨ 3 < s.gddrLE a 1 ∨ !zero then some s
  else if 2 ≤ pending then some (s.gddrPut (a + 4) 4 (pending - 1))
  else if s.gddrLE a 1 ≠ 1 then none
  else
    let u := s.gddrPut (a + 4) 4 n
    let qcb := u.gddrLE (a + 8) 8
    let record := u.gddrLE (a + 0x10) 8
    match u.queueAt qcb with
    | none => none
    | some q =>
      let tail := u.gddrLE (qcb + 0x10) 4
      if (tail + 2 ^ 32 - u.gddrLE (qcb + 0x14) 4) % 2 ^ 32 = u.gddrLE (qcb + 8) 4 ∨ d.heldAppends.any (fun h => h.queue == q) then
        none
      else
        let u := (u.gddrStore (u.gddrLE qcb 8 + 64 * (tail % u.gddrLE (qcb + 8) 4)) (readBytes u.map.gddr record 64)).gddrPut
          (qcb + 0x10) 4 (tail + 1)
        some { u with dist := { u.dist with nodes := u.dist.nodes ++ [{ queue := q, idx := tail, node := a, sd := sd }] } }

/-- Nothing of context c is left (R410 to R412, R426): its cores are ABSENT, and its gangs, its launch, its fills and
write-backs and its codec sessions are gone. -/
def tornDown (s : State) (c : Nat) (t : State) : Bool :=
  (s.coresOf c).all (fun p => (t.coreAt p).pst == .absent && (t.coreAt p).task.isNone) &&
  t.dist.gangs.all (fun g => g.ctx != c) && t.dist.launch.all (fun l => l.gang.ctx != c) &&
  (s.dist.launch.all (fun l => l.gang.ctx != c) || t.dist.lbresult == 1) &&
  t.map.fills.all (fun f => f.ctx != c) && t.map.backs.all (fun f => f.ctx != c) &&
  (List.range 24).all (fun e => !((t.codec e).en && (t.codec e).cctx.toNat % 64 == c)) &&
  t.map.stgFull.all (fun g => decide (0x800000 ≤ g) || !s.stgOwned c (16 * g) 16)

/-- The one queue of context c whose QCB lies at a is closed with a status (R410, R411): HEAD and OLDEST are TAIL, EN is
clear, and the slot of the one record that had not completed, if there is one, has completed with it. -/
def queueClosed (s : State) (a status : Nat) (t : State) : Bool :=
  let tail := s.gddrLE (a + 0x10) 4
  let old := s.gddrLE (a + 0x14) 4
  let slot := s.gddrLE (s.gddrLE a 8 + 64 * (old % s.gddrLE (a + 8) 4) + 0x3C) 2
  let n := min ((tail + 2 ^ 32 - old) % 2 ^ 32) (s.gddrLE (a + 8) 4)
  t.gddrLE (a + 0x0C) 4 == tail && t.gddrLE (a + 0x14) 4 == tail && t.gddrLE (a + 0x10) 4 == tail &&
  t.gddrLE (a + 0x1C) 2 == s.gddrLE (a + 0x1C) 2 / 2 * 2 &&
  (n != 1 || slot == 0xFFFF || (t.slotValue slot == (s.slotValue slot + 1) % 2 ^ 32 &&
    bytesAt t.dist.signals (16 * slot + 4) 1 == status))

/-- What lowering the rung of the stream whose descriptor lies at d does (R399), where the decision log is off: RUNG and
UPCNT are written, and the stream's waiting tasks that take its deadline get keys for the new COST. -/
def rungLowered (s : State) (d : Nat) (sorter : List (Nat × Word × Bool)) (t : State) : Bool :=
  let r := s.sdRung d
  let stream := fun (e : Nat × Word × Bool) => t.streamOf (e.2.1.toNat % 4096)
  let key := fun (e : Nat × Word × Bool) =>
    if t.fromStream (e.2.1.toNat % 4096) (e.2.1.toNat / 4096) then
      ((e.1 : Int) + s.sdCost d r - s.sdCost d (r + 1)).toNat % 2 ^ 64
    else e.1
  t.sdRung d == r + 1 && t.sdUpcnt d == 0 && setHas t.dist.fell d &&
  t.dist.sorter == sorter.filter (fun e => stream e != d) ++
    (sorter.filter (fun e => stream e == d)).map (fun e => (key e, e.2.1, false))

/-- The sorter with its first entry that TIME has passed and that was not marked marked (R397). -/
def marked (time : Nat) : List (Nat × Word × Bool) → List (Nat × Word × Bool)
  | [] => []
  | e :: l => if !e.2.2 ∧ e.1 < time then (e.1, e.2.1, true) :: l else e :: marked time l

/-- The registers, doorbells and assists of the distributor (R379, R382, R384, R393, R394, R396 to R399, R402, R403,
R405, R407, R410): what holds of the state that they leave. A write before stage 1 is an Unsupported Request (R465). -/
def distributorEvent (i : Instr) (s : State) : Option (State → Bool) :=
  let d := s.dist
  let reg := fun (x : Option (State → Bool)) => if s.inStage 1 then x else some (isState s.unsupported)
  let flagged := fun (v : Word) (b : Bool) =>
    reg (some (isDist s (match d.gangs.find? (fun g => g.origin == v.toNat % 2 ^ 11 && !g.nopre) with
      | some g => { d with gangs := d.gangs.map (fun x => if x = g then { x with flagged := b } else x) }
      | none => { d with pbad := true })))
  match i with
  | .qbell q =>
    let n := q.toNat % 4096
    reg (if hartRoom s (n % 8) then some (toldHart s (n % 8) (fun e => e % 2 ^ 8 == 1 && e / 2 ^ 16 % 2 ^ 16 == n)) else none)
  | .grun v => reg ((signalled s v.toNat 0).map isState)
  | .ctxkill v =>
    let c := v.toNat % 64
    reg (if !coresSound s ∨ !memWf s.map.gddr ∨ !memWf s.dist.signals then none
      else some (fun t =>
        t.ctxWord c 0 % 2 == 0 && tornDown s c t &&
        (match s.queuesOf c with
         | [(_, a)] => !d.heldAppends.isEmpty || !d.nodes.isEmpty ||
             (s.coresOf c).any (fun p => !(s.coreAt p).xfers.isEmpty) || queueClosed s a 2 t
         | _ => true)))
  | .preq v => flagged v (v.toNat / 2 ^ 16 % 2 == 0)
  | .preqCancel v => flagged v false
  | .plshape v => reg (some (isDist s { d with plshape := some (v &&& 0x1FFFF) }))
  | .lbgo =>
    reg (if d.launch.isSome ∨ !d.ended.isEmpty ∨ !s.inStage 2 then some (isState s)
      else match s.dirEntry s.lbQueue with
        | none => some (fun t => t.dist.lbresult == 3)
        | some q =>
          if !s.qcbOk q ∨ !s.recordOk then some (fun t => t.dist.lbresult == 3)
          else if !s.ctxLive (s.qCtx q) then some (isDist s { d with lbresult := 1 })
          else match s.readPlan s.lbQueue q with
            | (u, some pl) =>
              if u.notFree then some (isState { u with dist := { u.dist with lbresult := 2 } })
              else if !u.resident pl.granules then some (fun t => t.dist.lbresult == 4 && t.dist.launch.isNone)
              else some (fun t => t.dist.lbresult == 0 && (t.dist.launch.map (fun l =>
                (l.gang.origin, l.gang.size, l.gang.ctx, l.gang.queue, l.gang.members))) ==
                some (u.lbOrigin, u.recSize, pl.ctx, pl.queue, u.lbMembers) &&
                u.lbMembers.all (fun p =>
                  let c := t.coreAt p
                  c.pc == u.launchPc && c.regs == (Core.reset p).regs && c.full.isEmpty && c.xfers.isEmpty &&
                  c.csr.asid.toNat == pl.asid % 4096 && (u.lbResume || c.csr.pwin.toNat == 4 * u.recPsize % 2 ^ 13)))
            | (_, none) => some (fun t => t.dist.lbresult == 3))
  | .launchEnterCompute =>
    (match d.launch with
     | some l =>
       if !s.inStage 2 ∨ !d.ended.isEmpty then none
       else some (fun t => t.dist.launch.isNone && t.dist.gangs == d.gangs ++ [l.gang] &&
         l.gang.live.all (fun p => (t.coreAt p).pst == .compute && (t.coreAt p).csr.phase.toNat % 2 == 0))
     | none => none)
  | .residencyFilled k =>
    (match d.watches[k]? with
     | some w =>
       if w.granules.all s.stgFull ∧ hartRoom s 0 then some (fun t =>
         t.dist.watches == d.watches.eraseIdx k &&
         toldHart s 0 (fun e => e % 2 ^ 8 == 0x0A && e / 2 ^ 32 % 2 ^ 32 == w.idx.toNat) t)
       else none
     | none => none)
  | .dlw3Commit v =>
    let w := d.dlw.setIfInBounds 3 v
    let k := (vec4 w 0).toNat % 256
    reg (if k = 4 ∨ k = 5 ∨ k = 6 ∨ k = 8 then some (fun t =>
      t.dist.dlw == w && t.dist.dlbad == d.dlbad &&
      (match d.logHeld with
       | none => t.dist.dlhead == (if d.dlsize = 0 then d.dlhead else d.dlhead + 1)
       | some l => t.dist.dlhead == d.dlhead && (t.dist.logHeld.map (·.length)) == some (l.length + 1)))
    else some (isDist s { d with dlw := w, dlbad := true }))
  | .dlsizeWrite v => reg (some (isDist s { d with dlsize := v, dlhead := 0 }))
  | .ssins v => reg (some (isDist s (if 256 ≤ d.sorter.length then { d with ssFull := true }
      else { d with sorter := d.sorter ++ [(d.sskey.toNat, v, false)] })))
  | .sspop => reg (some (isDist s { d with sorter := match leastKey d.sorter with
      | some x => d.sorter.erase x
      | none => d.sorter }))
  | .ssdel v => reg (some (isDist s { d with sorter := d.sorter.filter (fun e => e.2.1 != v) }))
  | .slackneg =>
    (match d.sorter.find? (fun e => !e.2.2 && decide (e.1 < s.time.toNat)) with
     | some e =>
       let sd := s.streamOf (e.2.1.toNat % 4096)
       let l := marked s.time.toNat d.sorter
       if !hartRoom s 0 then none
       else if !(s.inStage 2 && d.run) then some (fun t =>
         t.dist.sorter == l && t.map.gddr == s.map.gddr && t.dist.chores == d.chores ++ [.rungDown e.2.1 e.1] &&
         toldHart s 0 (fun n => n % 2 ^ 8 == 7 && n / 2 ^ 32 % 2 ^ 32 == e.2.1.toNat) t)
       else if sd = 0 ∨ setHas d.fell sd ∨ s.sdRungs sd ≤ s.sdRung sd + 1 then some (fun t =>
         t.dist.sorter == l && t.map.gddr == s.map.gddr &&
         toldHart s 0 (fun n => n % 2 ^ 8 == 7 && n / 2 ^ 32 % 2 ^ 32 == e.2.1.toNat) t)
       else if d.dlsize = 0 ∧ memWf s.map.gddr ∧ setWfFrom 0 d.fell then some (fun t =>
         rungLowered s sd l t &&
         toldHart s 0 (fun n => n % 2 ^ 8 == 7 && n / 2 ^ 32 % 2 ^ 32 == e.2.1.toNat) t)
       else none
     | none => none)
  | .streamRelease a =>
    let next := s.gddrLE (a + 0x08) 8
    if !(s.inStage 2 && d.run) then some (isState s)
    else if next ≤ s.time.toNat ∧ !s.frameOpen a ∧ s.gddrLE (a + 0x1C) 4 = 0 then
      let u := ({ s with dist := { d with fell := setDel d.fell a } } : State).gddrPut (a + 0x08) 8 (next + s.gddrLE a 8)
      let u := u.gddrPut (a + 0x38) 8 (u.gddrLE (a + 0x38) 8 + 1)
      (signalled u (u.gddrLE (a + 0x30) 8) a).map isState
    else none
  | .sbcfgWrite n v =>
    reg (if n < 16 then some (fun t =>
      (t.board n).cfg == v &&& 0x80003FFF && planesAre n [] [] (s.board n).passes t)
    else none)
  | .sbret n v =>
    let b := s.board n
    let x := v.toNat % 128
    let y := v.toNat / 2 ^ 16 % 128
    reg (if n < 16 ∧ x ≤ b.cfg.toNat % 128 ∧ y ≤ b.cfg.toNat / 128 % 128 then
      some (planesAre n b.plane0 (setAdd b.plane1 (128 * y + x)) b.passes)
    else none)
  | .sbpass n => reg (if n < 16 then some (planesAre n (s.board n).plane1 [] ((s.board n).passes + 1)) else none)
  | .sbrel n =>
    let q := (s.board n).fifo.drop 1
    reg (if n < 16 then some (fun t => (t.board n).fifo.take q.length == q) else none)
  | .mirrorWrite l v =>
    reg (if 1536 ≤ l then some (isState s)
      else if (s.coreAt (s.mirrorEntry l % 2 ^ 11)).task.isSome then
        some (isDist s { d with heldMirror := d.heldMirror ++ [(l, v)] })
      else some (fun t => t.mirrorEntry l == v.toNat % 2 ^ 11 + v.toNat / 2 ^ 16 % 2 ^ 7 * 2 ^ 16))
  | _ => none

/-- The custom instructions, loads and stores of a hart that runs (R376 to R380), and DCTL, which takes writes from stage 1 on
and runs the harts from stage 2 on (R464, R465): the state that they leave. -/
def hartEvent (i : Instr) (s : State) : Option State :=
  let runs := fun (h : Nat) => s.dist.run && decide (h < 8)
  let next := fun (x : Hart) => { x with
    pc := x.pc + (if (memRead x.imem x.pc.toNat).toNat % 4 = 3 then 4 else 2), minstret := x.minstret + 1 }
  let put := fun (x : Hart) (rd : Nat) (v : Word) => if rd = 0 then x else { x with x := x.x.setIfInBounds rd v }
  let lo := fun (v : BitVec 64) => BitVec.ofNat 32 v.toNat
  let hi := fun (v : BitVec 64) => BitVec.ofNat 32 (v.toNat / 2 ^ 32)
  match i with
  | .hartRun v =>
    if !s.inStage 1 then some s.unsupported
    else if s.mgmt.stage < 2 then some s
    else if v.toNat % 2 = 1 then
      (if s.dist.chores.isEmpty ∧ s.dist.graphSignals.isEmpty then some { s with dist := { s.dist with run := true } } else none)
    else some { s with dist := { s.dist with run := false, harts := s.dist.harts.map (fun x =>
      { Hart.reset with imem := x.imem, dmem := x.dmem, events := x.events }) } }
  | .devt0 h rd =>
    let x := s.hart h
    if !runs h ∨ s.dist.stalled.any (fun e => e.1 == h) ∨ (!x.events.isEmpty ∧ !s.dist.ended.isEmpty) ∨
        (h = 0 ∧ !x.events.isEmpty ∧ (List.range 16).any (fun n => wbit (s.board n).cfg 31)) then none
    else match x.events with
      | [] => some (s.setHart h (next (put x rd 0)))
      | e :: t =>
        let w := fun k => BitVec.ofNat 32 (e.toNat / 2 ^ (32 * k))
        some (s.setHart h (next (put { x with events := t, devt1 := w 1, devt2 := w 2, devt3 := w 3 } rd (w 0))))
  | .dtime h rd =>
    if runs h then some (s.setHart h (next (put { s.hart h with dtimeh := hi s.time } rd (lo s.time)))) else none
  | .dphase h rd =>
    if runs h then some (s.setHart h (next (put { s.hart h with dphaseh := hi s.iris.phase } rd (lo s.iris.phase)))) else none
  | .atcmd h v =>
    let w := s.atWindow h
    let a := w.addr.toNat / 4 * 4
    let old := s.gddrLE a 4
    if !runs h ∨ gddrSize < a + 4 ∨ s.gddrPoisoned a 4 ∨ 4 < v.toNat / 16 % 8 then none
    else
      let ended := fun (u : State) (ok : Bool) =>
        u.putAtWindow h { w with res := BitVec.ofNat 32 old, casok := ok, err := false }
      (match v.toNat % 16 with
       | 0 => some (ended (s.gddrPut a 4 (pat32 ((old : Int) + w.a.toNat))) false)
       | 4 => some (ended (s.gddrPut a 4 w.a.toNat) false)
       | 5 => some (if old = w.a.toNat then ended (s.gddrPut a 4 w.b.toNat) true else ended s false)
       | _ => none)
  | .hartLoadStore h addr n signed rd store =>
    let x := s.hart h
    let o := addr.toNat - 0x10000000
    if !runs h ∨ addr.toNat < 0x10000000 ∨ 0x10008000 ≤ addr.toNat ∨ !(n = 1 ∨ n = 2 ∨ n = 4) ∨ addr.toNat % n ≠ 0 then none
    else match store with
      | none =>
        let v := bytesAt x.dmem o n
        some (s.setHart h (next (put x rd (BitVec.ofNat 32 (if signed then pat32 (sx v (8 * n)) else v)))))
      | some v => some (s.setHart h (next { x with dmem := writeLE x.dmem o n v.toNat }))
  | _ => none

end Sys2Proof.Claims

/-! ## Codec engines, PCI Express and peers -/

namespace Sys2Proof.Claims
open Sys2Proof.Machine

/-- A session begins or ends with nothing left of the one before (R415, R426). -/
def emptied (x : Codec) (on : Bool) : Codec :=
  { x with en := on, stage := .idle, planes := Vector.replicate 3 .reset, coded := [], ready := [], reading := false
           damaged := false, held := false }

/-- The rows of samples from which an encoder codes block row r (R417, R419): those of each plane up to its last one, which
repeats where the picture ended early; H.264 and AV1 in 8 bits code min(255, (x + 2) >> 2). -/
def rowsCoded (x : Codec) (r : Nat) : List (List Nat) :=
  let kind := x.cfg.toNat % 16
  let sample := fun (v : Nat) => if kind = 0 ∨ kind = 4 then min 255 ((v + 2) / 4) else v
  [0, 1, 2].flatMap (fun pl =>
    let q := x.plane pl
    let h := if pl = 0 then 64 else 32
    let n := min h (x.planeRows pl - h * r)
    let whole := q.rows.takeWhile (fun y => !y.last) ++ (q.rows.dropWhile (fun y => !y.last)).take 1
    let live := if q.ended then [] else (whole.take n).map (·.samples)
    (live ++ List.replicate (n - live.length) (live.getLast?.getD q.final)).map (·.map sample))

/-- The length of an encoder's next chunk of a picture with so many bytes left (R422, R494): all of it where it fits a
quarter of the data area, else a free number up to that quarter (log 11). -/
def chunkLength (r : Ring) (left free : Nat) : Nat :=
  if left ≤ r.dataSize / 4 then left else free % (r.dataSize / 4) + 1

/-- A chunk record (R421): PICNUM, STATUS, FLAGS, OFF, LEN, TIME and SRCTIME. -/
def recordBytes (s : State) (x : Codec) (failed last : Bool) (off len : Nat) : List Byte :=
  let gop := x.gop.toNat % 2 ^ 16
  let key := x.keyNext || (gop != 0 && x.picnum % gop == 0)
  let short := [0, 1, 2].any (fun pl => (x.plane pl).short)
  bytesOfNat 4 x.picnum ++ bytesOfNat 1 (if failed then 1 else 0) ++
  bytesOfNat 1 ((if key then 1 else 0) + (if last then 2 else 0) + (if short then 4 else 0)) ++ bytesOfNat 2 0 ++
  bytesOfNat 4 off ++ bytesOfNat 4 len ++ bytesOfNat 8 s.time.toNat ++ bytesOfNat 8 x.srctime.toNat

/-- The function and the entry of its table that an MSI-X vector names, and what leaves on it (R436). -/
def msixSent (s : State) (vec : Nat) : List Output :=
  let fn := if s.numVfs = 0 then 0 else vec / 32
  let m := if s.numVfs = 0 then vec else vec % 32
  if vec < 2048 ∧ fn ≤ s.numVfs ∧ setHas s.msixOpen (msixKey fn m) then [.msix fn m] else []

/-- The records pending for MSI-X after one more is written to the ring of the engine's session (R423), ring by ring: with
CCNT reached its ring has none left; else it has one more, since the time of the first, with VEC and CTIME as read with the
newest (log 112). -/
def pendingAfter (s : State) (e : Nat) (x : Codec) (r : Ring) : List PendingRecords :=
  let asid := x.cctx.toNat / 2 ^ 6 % 2 ^ 12
  let here := fun (q : PendingRecords) => q.asid == asid && q.ring == x.ring
  let n := ((s.ringPend.find? here).map (·.count)).getD 0 + 1
  let others := s.ringPend.filter (fun q => !here q)
  if r.vec ≠ 0xFFFF ∧ r.ccnt ≠ 0 ∧ r.ccnt ≤ n then others
  else others ++ [{ asid := asid, ring := x.ring, engine := e, count := n
                    since := ((s.ringPend.find? here).map (·.since)).getD s.time, vec := r.vec, ctime := r.ctime }]

/-- The writes of a chunk and its record (R422 steps 2 to 4): its bytes, which are free, in the data area, the record in its
place, and WRIDX; none where one of them fails. -/
def chunkWrites (s : State) (e : Nat) (r : Ring) (x : Codec) (failed last : Bool) (off len : Nat) : Option State :=
  let data := (List.range len).map (fun i => Config.codedByte s.nfree x.coded (off + i))
  match s.codecWrite e (r.dataBase + off) data with
  | (_, false) => none
  | (u, true) =>
    match u.codecWrite e (r.recBase + 32 * (r.wr % r.nrec)) (recordBytes s x failed last off len) with
    | (_, false) => none
    | (u, true) =>
      match u.codecWrite e (x.ring.toNat + 0x0C) (bytesOfNat 4 (r.wr + 1)) with
      | (_, false) => none
      | (u, true) => some u

/-- The steps of the codec engines that are due (R413 to R427), with what holds of the state that they leave; EN is written
from stage 2 on (R465). -/
def codecEvent (i : Instr) (s : State) : Option (State → Bool) :=
  let reg := fun (u : State) => some (isState (if s.inStage 2 then u else s.unsupported))
  match i with
  | .codecEnable e =>
    let x := s.codec e
    reg (if 24 ≤ e ∨ x.en then s
      else s.putCodec e (if s.enableRefused x (decide (e < 16)) then { x with rej := true }
        else { emptied x true with picnum := 0, lastEnd := 0, keyNext := true }))
  | .codecDisable e => reg (if 24 ≤ e then s else s.putCodec e (emptied (s.codec e) false))
  | .encodeBlockRow e =>
    let x := s.codec e
    let row := match x.stage with
      | .idle => some 0
      | .coding r => some r
      | .chunks .. => none
    (match row with
     | some r =>
       if e < 16 ∧ x.en ∧ [0, 1, 2].all (fun pl => (x.plane pl).has (x.blockRows pl r)) then
         let va := x.ref.toNat + x.picnum % (x.nref + 1) * x.slotSize
         let done := fun (t : State) =>
           let y := t.codec e
           y.coded == x.coded ++ rowsCoded x r && y.cfg == x.cfg && y.en &&
           (match y.stage with
            | .coding k => k == r + 1 && r + 1 != (x.height + 63) / 64
            | .chunks left failed => r + 1 == (x.height + 63) / 64 && !failed && left != 0
            | .idle => false)
         some (fun t =>
           if x.keyPicture then
             (match s.codecWrite e va (List.replicate x.slotSize 0) with
              | (_, true) => done t
              | (_, false) => (t.codec e).stage == .chunks 0 true)
           else done t || (t.codec e).stage == .chunks 0 true)
       else none
     | none => none)
  | .chunkWrite e =>
    let x := s.codec e
    (match x.stage, s.codecRing e with
     | .chunks left failed, (u, some r) =>
       let len := chunkLength r left (Config.freeNat u.nfree)
       let off := if r.dataSize < x.lastEnd + len then 0 else x.lastEnd
       let last := len == left
       if 16 ≤ e ∨ !x.en then none
       else match if failed then (u, some false) else u.overlaps e r off len (min r.pending r.nrec) with
         | (_, none) => none
         | (v, some meets) =>
           if r.nrec ≤ r.pending ∨ meets then some (fun t => (t.codec e).held && (t.codec e).stage == x.stage && t.map == v.map)
           else match chunkWrites v e r x failed last off len with
             | none => none
             | some w => some (fun t =>
                 let y := t.codec e
                 t.map == w.map && y.lastEnd == off + len && !y.held &&
                 (if last then y.stage == .idle && y.picnum == (x.picnum + 1) % 2 ^ 32 &&
                    y.pics == (if failed then x.pics else (x.pics + 1) % 2 ^ 16) && y.keyNext == failed &&
                    t.dist.signals == (w.complete r.sig (if failed then 1 else 0)).dist.signals
                  else y.stage == .chunks (left - len) failed && y.picnum == x.picnum) &&
                 t.ringPend == pendingAfter s e x r)
     | _, _ => none)
  | .msixCoalesceTimeout e =>
    (match s.ringPend.find? (fun q => q.engine == e && decide (q.vec ≠ 0xFFFF ∧ q.ctime ≠ 0 ∧ q.since.toNat + 1000 * q.ctime ≤ s.time.toNat)) with
     | some q =>
       if e < 16 then some (fun t =>
         t.ringPend == s.ringPend.erase q && t.out == s.out ++ msixSent s q.vec && t.map == s.map)
       else none
     | none => none)
  | .decodeChunk d =>
    let e := 16 + d
    let x := s.codec e
    (match s.codecRing e with
     | (u, some r) =>
       if 8 ≤ d ∨ !x.en ∨ r.pending = 0 then none
       else
         let passed := fun (u t : State) => t.map == (u.codecWrite e (x.ring.toNat + 0x10) (bytesOfNat 4 (r.rd + 1))).1.map
         let taken := fun (u t : State) => passed u t && (t.codec e).ready.length == x.ready.length + 1 && !(t.codec e).damaged &&
           !(t.codec e).reading
         match u.codecRead e (r.recBase + 32 * (r.rd % r.nrec)) 32 with
         | (v, none) => some (taken (v.takePicture e true))
         | (v, some bs) =>
           if (bs.drop 6).take 2 ≠ [0, 0] then some (taken (v.takePicture e true))
           else match v.codecRead e (r.dataBase + ringField bs 8 4) (ringField bs 12 4) with
             | (w, data) =>
               let bad := x.damaged || data.isNone
               if ringField bs 5 1 / 2 % 2 = 1 then some (taken (w.takePicture e bad))
               else some (fun t => passed w t && (t.codec e).ready == x.ready && (t.codec e).damaged == bad &&
                 (t.codec e).reading)
     | _ => none)
  | .decoderRowOutput d =>
    let e := 16 + d
    let x := s.codec e
    (match x.ready, x.nextPlane with
     | _ :: _, some pl =>
       let q := x.plane pl
       let crop := min x.width (Config.croppedWidth e x.picnum) / (if pl = 0 then 1 else 2)
       if d < 8 ∧ x.en ∧ q.taken + 1 < x.planeRows pl then some (fun t =>
         let z := (t.codec e).plane pl
         z.taken == q.taken + 1 && z.rows.dropLast == q.rows &&
         (match z.rows.getLast? with
          | some row => row.samples.length == x.rowSamples pl && (row.samples.drop crop).all (· == 0)
          | none => false))
       else none
     | _, _ => none)
  | _ => none

/-- The fields of a message of the peer reduction unit (R442): KIND, RANK and BLOCK in bytes 12 to 15 of its header, OFFSET
and the failure kind in the first word of its payload, and the data behind it. -/
def messageKind (m : PeerMsg) : Nat := m.header.toNat % 4
def messageRank (m : PeerMsg) : Nat := m.header.toNat / 4 % 256
def messageBlock (m : PeerMsg) : Nat := m.header.toNat / 2 ^ 10 % 4096
def messageOffset (m : PeerMsg) : Nat := natOfBytes (m.payload.take 4) % 2 ^ 24
def messageFailure (m : PeerMsg) : Nat := natOfBytes (m.payload.take 4) / 2 ^ 24 % 256
def messageData (m : PeerMsg) : List Byte := m.payload.drop 4

/-- An acknowledgement (R442): KIND 1 with the contribution's rank, block and offset, and how it failed. -/
def acknowledgement (m : PeerMsg) (failure : Nat) : PeerMsg :=
  { header := BitVec.ofNat 32 (1 + 4 * messageRank m + 2 ^ 10 * messageBlock m)
    payload := bytesOfNat 4 (messageOffset m + 2 ^ 24 * failure), ep := false }

/-- What arrives at the ports (R432 to R446): what holds of the state that it leaves. Of the requests of the host these are
those of the physical function to device memory. -/
def portEvent (i : Instr) (s : State) : Option (State → Bool) :=
  match i with
  | .pcieMemoryRequest r =>
    if r.fn ≠ 0 ∨ r.bar ≠ 2 ∨ r.n = 0 ∨ r.data = some [] then none
    else if !s.inStage 1 then some (isState s.unsupported)
    else match r.data with
      | none =>
        if gddrSize < r.off + r.n then some (isState s.unsupported)
        else some (isState (s.emit (.completion 0 (readBytes s.map.gddr r.off r.n) (s.gddrPoisoned r.off r.n))))
      | some bs =>
        if gddrSize < r.off + bs.length then some (isState s.unsupported)
        else if r.ep then none else some (isState (s.gddrStore r.off bs))
  | .pcieAtomicop q =>
    if s.inStage 1 ∧ q.fn = 0 ∧ q.bar = 2 ∧ (q.size = 4 ∨ q.size = 8) ∧ q.off % q.size = 0 ∧ q.off + q.size ≤ gddrSize ∧
        !s.gddrPoisoned q.off q.size then
      let old := bytesAt s.map.gddr q.off q.size
      let m := 256 ^ q.size
      let new := match q.op with
        | .fetchAdd => (old + q.a) % m
        | .swap => q.a % m
        | .cas => if old = q.a % m then q.b % m else old
      some (isState ((s.gddrPut q.off q.size new).emit (.completion 0 (readBytes s.map.gddr q.off q.size) false)))
    else
      -- BAR4 of the physical function and a peer's request name the cores' windows from offset 0 on
      let core := q.off / 2 ^ 20
      if s.inStage 2 ∧ (q.fn = 0 ∨ 64 ≤ q.fn) ∧ q.bar = 4 ∧ 0 < q.size ∧ q.off + q.size ≤ 1600 * 2 ^ 20 then
        (if (s.coreAt core).task.isSome then some (isState s.aborted)
         else some (isState s.unsupported))
      else none
  | .vqbell vf q =>
    let n := q.toNat % 4096
    (match s.dirEntry n with
     | some a =>
       if 1 ≤ vf ∧ (!s.inStage 1 ∨ s.numVfs < vf) then some (isState s.unsupported)
       else if 1 ≤ vf ∧ s.qcbOk a ∧ s.qCtx a = vf ∧ hartRoom s (n % 8) then
         some (toldHart s (n % 8) (fun e => e % 2 ^ 8 == 1 && e / 2 ^ 16 % 2 ^ 16 == n))
       else none
     | none => if 1 ≤ vf ∧ (!s.inStage 1 ∨ s.numVfs < vf) then some (isState s.unsupported) else none)
  | .linkTraining port speed width =>
    (match s.ports[port]? with
     | some x =>
       let top := match x.cfg.toNat % 4 with
         | 0 => 7
         | 1 => 6
         | _ => 5
       if 5 ≤ speed ∧ speed ≤ top ∧ [1, 2, 4, 8, 16].contains width ∧ s.inStage (if port = 0 then 0 else 1) then
         some (isState { s with ports := s.ports.setIfInBounds port { x with speed := speed, width := width } })
       else none
     | none => none)
  | .linkDown port =>
    if port < 5 then some (fun t => (t.ports[port]?.map (fun x => (x.speed, x.width))) == some (0, 0)) else none
  | .pcieConfigurationRequest w =>
    if s.mgmt.inReset then none
    else
      (match w with
       | .numVfs n => some (isState (if s.mgmt.stage < 1 ∨ 63 < n then s else { s with numVfs := n }))
       | .mask fn m masked =>
         let v := msixKey fn m
         if fn ≠ 0 ∧ (s.numVfs < fn ∨ s.mgmt.stage < 1) then some (isState s.unsupported)
         else if (if fn = 0 then 2048 else 32) ≤ m then some (isState s)
         else if !setWfFrom 0 s.msixOpen ∨ !setWfFrom 0 s.msixPend then none
         else some (fun t =>
           let now := !masked && setHas s.msixPend v
           setHas t.msixOpen v == !masked && t.out == s.out ++ (if now then [.msix fn m] else []) &&
           (!now || !setHas t.msixPend v))
       | .pending fn =>
         if fn ≠ 0 ∧ (s.numVfs < fn ∨ s.mgmt.stage < 1) then some (isState s.unsupported)
         else some (fun t => t.out.length == s.out.length + 1 &&
           (match t.out.getLast? with
            | some (.completion 0 bs false) => (List.range (if fn = 0 then 2048 else 32)).all (fun m =>
                (natOfBytes bs / 2 ^ m % 2 == 1) == setHas s.msixPend (msixKey fn m))
            | _ => false)))
  | .peerBlockArm b =>
    let x := s.block b
    if 4096 ≤ b then none
    else some (isState (if !s.inStage 1 then s.unsupported
      else if s.armRefused x then { s with peer := { s.peer with rej := true } }
      else s.putBlock b { x with state := .collect, arrived := [], bytes := [], taint := [] }))
  | .peerBlockCancel b =>
    if 4096 ≤ b then none
    else some (isState (if !s.inStage 1 then s.unsupported
      else s.putBlock b { s.block b with state := .idle, arrived := [], bytes := [], taint := [] }))
  | .peerContrib port m =>
    let b := messageBlock m
    let n := (messageData m).length
    if !s.inStage 1 ∨ messageKind m ≠ 0 ∨ 512 < n then some (isState s)
    else (contributed s (messageRank m) b (messageOffset m) (messageData m) m.ep).map (fun r t =>
      t.out == s.out ++ r.2.1 ++ [.peer port (acknowledgement m r.1)] && r.2.2 t)
  | .peerAck _ m =>
    if !s.inStage 1 ∨ messageKind m ≠ 1 ∨ 512 < (messageData m).length then some (isState s)
    else (match s.peer.waiting.find? (fun w => w.block == messageBlock m && w.offset == messageOffset m) with
      | none => some (isState s)
      | some w => some (fun t =>
          let failed := messageFailure m ≠ 0 ∧ ((s.coreAt w.core).xfer w.chan w.id).isSome
          t.peer.waiting == (s.peer.waiting.erase w).filter (fun v =>
            !(decide failed && v.core == w.core && v.chan == w.chan && v.id == w.id)) &&
          (match (s.coreAt w.core).xfer w.chan w.id with
           | none => true
           | some y => ((t.coreAt w.core).xfer w.chan w.id).map (fun z => (z.acks, z.failed)) ==
               some (if messageFailure m = 0 then (y.acks.erase w.piece, y.failed) else ([], true)))))
  | .peerDone _ m =>
    let x := s.block (messageBlock m)
    if !s.inStage 1 ∨ messageKind m ≠ 2 ∨ 512 < (messageData m).length ∨ x.state ≠ .collect then some (isState s)
    else some (fun t => (t.block (messageBlock m)).state == .done &&
      (x.rsig = 0xFFFF || !memWf s.dist.signals || isRank s x && t.slotValue x.rsig == (s.slotValue x.rsig + 1) % 2 ^ 32 ||
        !(isRank s x) && t.dist.signals == s.dist.signals))
  | _ => none

end Sys2Proof.Claims

/-! ## Debug, management and power -/

namespace Sys2Proof.Claims
open Sys2Proof.Machine

/-- The front end of core p issues: COMPUTE, an exchange block or STRAGGLER, not HALTED, and no step waits (R55,
R447, R451). -/
def frontIssues (c : Core) : Bool :=
  !c.halted && (c.pst == .compute || c.pst == .exchange || c.pst == .straggler) &&
  (match c.dbg.stepping with
   | some st => !st.retired
   | none => true)

/-- The cores that a DCMD names (R463): those of contexts that permit debug, one logical core of them or, with bit 24, all
of DSCTX.CTX. -/
def commanded (s : State) (v : Word) : List Nat :=
  (s.cores.filter (fun c => match c.task with
    | none => false
    | some f =>
      (s.dist.contexts[f.ctx]?.getD 0).toNat / 4 % 2 == 1 &&
      (if v.toNat / 2 ^ 24 % 2 = 1 then f.ctx == s.debugUnit.ctx else c.csr.coreL.toNat == v.toNat / 2 ^ 8 % 2 ^ 11))).map
    (·.phys)

/-- The place of the next record in a core's trace buffer (R458). -/
def tracePlace (c : Core) : Nat :=
  let ctl := c.csr.tracectl.toNat
  (c.csr.tracebase.toNat * 2 ^ 20 + 32 * (ctl / 2 ^ 16 % (128 * 2 ^ (ctl / 2 ^ 8 % 16)))) % 2 ^ 52

/-- TRACECTL after a record has been performed (R458, R460): WIDX counts it, and FULL is set where the buffer ends and WRAP
is clear. -/
def tracectlAfter (c : Core) : Word :=
  let ctl := c.csr.tracectl.toNat
  let i := (ctl / 2 ^ 16 + 1) % 2 ^ 16
  let full := ctl / 2 ^ 5 % 2 = 0 ∧ i % (128 * 2 ^ (ctl / 2 ^ 8 % 16)) = 0 ∧ ctl / 2 ^ 6 % 2 = 0
  BitVec.ofNat 32 (ctl % 2 ^ 16 + 2 ^ 16 * i + (if full then 64 else 0))

/-- The steps of the debug and trace unit that are due (R447, R448, R451, R454, R460, R463), with what holds of the state
that they leave; a command before stage 1 is an Unsupported Request (R465). -/
def debugEvent (i : Instr) (s : State) : Option (State → Bool) :=
  let each := fun (v : Word) (f : Core → Core) =>
    if !s.inStage 1 then some (isState s.unsupported)
    else if !coresSound s then none
    else some (fun (t : State) => s.cores.all (fun c =>
      t.coreAt c.phys == (if (commanded s v).contains c.phys then f c else c)))
  let step := fun (deep : Bool) (c : Core) =>
    let due := c.dbg.stepping.any (fun st => !st.host && st.retired)
    { c with
      halted := false
      dbg := if due then { c.dbg with asked := some deep }
        else { c.dbg with stepping := some { deep := deep, host := true, retired := false, tokens := [] } } }
  match i with
  | .dcmdHalt v => each v (fun c => if c.halted then c else { c with pend := { c.pend with halt := some 1 } })
  | .dcmdResume v => each v (fun c =>
      if c.halted then { c with halted := false }
      else match c.dbg.stepping with
        | some st => if st.host && st.retired then { c with dbg := { c.dbg with stepping := none } } else c
        | none => c)
  | .dcmdStep v => each v (step false)
  | .dcmdStepD v => each v (step true)
  | .stepStop p =>
    let c := s.coreAt p
    (match c.dbg.stepping with
     | some st =>
       let stm := c.csr.dbgctl.toNat / 2 % 4
       if 1600 ≤ p ∨ !st.retired ∨ c.halted ∨ !(c.pst == .compute || c.pst == .exchange || c.pst == .straggler) ∨
           (st.deep && !st.tokens.all (waitDone c)) then none
       else some (fun t =>
         let k := t.coreAt p
         if st.host then k.halted && k.pend.step == c.pend.step && k.csr.dbgstat.toNat % 8 ==
            (match c.pend.halt with
             | some h => h
             | none => if st.deep then 5 else 4) % 8 &&
            k.dbg.stepping == (if stm = 0 then none else some { st with deep := stm == 2, host := false })
          else k.dbg.stepping == c.dbg.asked.map (fun d => { deep := d, host := true, retired := false, tokens := [] }) &&
            !k.halted && k.pend.step == c.pend.step ++ [(if st.deep then 1 else 0, 0)])
     | none => none)
  | .stopArm v => some (isState (if !s.inStage 1 then s.unsupported
      else { s with debugUnit := { s.debugUnit with ctx := v.toNat % 64, armed := v.toNat / 2 ^ 16 % 2 == 1 } }))
  | .stopFires p =>
    if p < 1600 ∧ frontIssues (s.coreAt p) ∧ (s.select p).stopReached then some (fun t =>
      t.core.phys == (s.select p).core.phys && t.core.halted &&
      t.core.csr.dbgstat.toNat % 8 == ((s.select p).core.pend.halt.getD 2) % 8 && t.core.pend.halt.isNone && !t.debugUnit.armed)
    else none
  | .debugWindowAccess p off n data =>
    let c := s.coreAt p
    if 1600 ≤ p ∨ !c.halted ∨ 0xA0000 < off + n then none
    else match data with
      | none => some (isState (s.emit (.completion 0 (readBytes c.mem off n) (!clean c off n))))
      | some v => some (fun t => (List.range n).all (fun k =>
          memRead (t.coreAt p).mem (off + k) == BitVec.ofNat 8 (v / 256 ^ k)) || !memWf c.mem)
  | .traceRecordWrite p =>
    let c := s.coreAt p
    let va := tracePlace c
    (match c.dbg.fifo with
     | r :: q =>
       if 1600 ≤ p ∨ c.csr.tracectl.toNat / 2 % 2 = 1 ∨ c.csr.tracectl.toNat / 64 % 2 = 1 then none
       else match s.writeFor (va / 2 ^ 16 % 16) c.ctx c.csr.asid.toNat (some p) va (bytesOfNat 32 r.toNat) with
         | (u, .ok _) => some (fun t =>
             let k := t.coreAt p
             t.map == u.map && k.csr.tracectl == tracectlAfter c && k.dbg.fifo.take q.length == q &&
             (c.dbg.dropped != 0 || k.dbg.fifo == q))
         | (_, .error (_, kind)) => some (fun t =>
             let k := t.coreAt p
             k.csr.tracectl == c.csr.tracectl ||| 2 && k.dbg.fifo == q &&
             k.csr.dbgstat.toNat / 2 ^ 8 % 2 ^ 8 == kind % 2 ^ 8)
     | [] => none)
  | .impreciseReportTaken p =>
    let u := s.select p
    (match firstReport u.core with
     | some (e, r) =>
       if 1600 ≤ p ∨ !frontIssues u.core ∨ u.core.midRange ∨ u.stilled ∨ u.core.pend.halt.isSome ∨ u.stopReached ∨ u.core.csr.priv then none
       else
         let c := u.core.setEng e { u.core.eng e with report := none }
         some (isState { u with core := c.enterTrap u.det (reported u.core e r) })
     | none => none)
  | .unallocatedWord sub v =>
    let c := s.core
    if c.csr.priv then none
    else some (isState { s with core := (c.enterTrap s.det
      (Trap.mk 0x01 0 0 false sub.toNat c.pc v)) })
  | .instructionFetchFault w cause =>
    let c := s.core
    let a := (c.pc.toNat + 4 * w) % 2 ^ 16
    let code := if cause = .poisoned then 0x06 else 0x04
    if c.csr.priv then none
    else some (isState { s with core := (c.enterTrap s.det
      (Trap.mk code (if cause = .poisoned then 0 else w) 0 false (if cause = .notExecutable then 1 else 0) c.pc
        (BitVec.ofNat 32 (if cause = .poisoned then a / 8 * 8 else a / 4096 * 4096)))) })
  | _ => none

/-- Every context is torn down by a device fault (R411): no core of context 0 to 63 holds a task any more. -/
def allTornDown (s t : State) : Bool :=
  s.cores.all (fun c => match c.task with
    | some f => decide (64 ≤ f.ctx) || ((t.coreAt c.phys).pst == .absent && (t.coreAt c.phys).task.isNone)
    | none => true)

/-- The image in MBBUF (R467). -/
def bufferedImage (m : Mgmt) : List Byte :=
  let n := 0x14A0 + bytesAt m.mbbuf 0x0C 4
  readBytes m.mbbuf 0 (if n ≤ 0x400000 then n else 0x14A0)

/-- The distributor with a microcode loaded (R469): what it places in the harts' memories is free (log 14). -/
def ucodeLoaded (d : Distributor) (body : List Byte) : Distributor :=
  { d with
    img := true
    ucode := body
    harts := Vector.ofFn (fun k : Fin 8 =>
      { d.harts[k] with imem := writeBytes [] 0 ((Config.hartImage body k.val).take 0x8000) }) }

/-- What LOADUC leaves (R469): the fused counter rises where stage 2 is completed (R467), and before that the image is kept
for stage 2 (log 101). -/
def afterLoaduc (s : State) : State :=
  let m := s.mgmt
  let image := bufferedImage m
  let r := m.verify 2 image
  let done := { m with mbBusy := none, mbResult := if s.dist.run ∨ (List.range 64).any s.ctxLive then 4 else r }
  if done.mbResult ≠ 0 then { s with mgmt := done }
  else { s with
    mgmt := if m.stage = 2 ∧ !m.err then { done with svnMicrocode := max m.svnMicrocode (imgSvn image) }
      else { done with ucImage := image }
    dist := ucodeLoaded s.dist ((image.drop 0x14A0).take (imgLen image)) }

/-- The peak current of a rail in A (R471). -/
def peakOf : Rail → Nat
  | .vcore => 6000
  | .vsram => 400
  | .vio => 60
  | .vaux => 10

/-- The management and power controllers (R464 to R475), and a host's writes to CTO, XTO, WDOG and SLIM (R374): what holds
of the state that they leave. -/
def managementEvent (i : Instr) (s : State) : Option (State → Bool) :=
  let m := s.mgmt
  let w := s.power
  let mgmt := fun (x : Mgmt) => some (isState { s with mgmt := x })
  let pow := fun (x : Power) => some (isState { s with power := x })
  let image := bufferedImage m
  let identity := Config.mldsaKey (Config.shake256 Config.uniqueSecret 32)
  let command := fun (code : Nat) (x : Option (State → Bool)) => if m.mbBusy = some code then x else some (isState s)
  let load := fun (code : Nat) (flash : Bool) =>
    let r := m.verify 1 image
    command code (mgmt (if r ≠ 0 then { m with mbBusy := none, mbResult := r }
      else { m with
        mbBusy := none, mbResult := 0, firmware := image, recov := false, err := m.err && decide (m.stage ≠ 0)
        flash := if flash then image else m.flash }))
  let answer := fun (ok : Bool) (x : Spdm) (code index : Nat) (data : List Byte) =>
    some (isState (if m.inReset then s else (({ s with mgmt := { m with spdm := x } } : State).emit
      (if ok then .spdm code index data else .spdm 0x7F 0 []))))
  let digest := Config.shake256 Config.certificates 64
  match i with
  | .resetRelease =>
    if m.inReset then some (isState { s with
      mgmt := { m with inReset := false, idKey := identity }
      power := { w with account := w.pburst * 1000, tlast := s.time } }) else some (isState s)
  | .stage1Entry =>
    let x := if m.firmware = [] then m.flash else m.firmware
    if m.inReset ∨ m.stage ≠ 0 then some (isState s)
    else mgmt (if m.verify 1 x = 0 then
      { m with stage := 1, err := false, recov := false, firmware := x.take (0x14A0 + imgLen x) }
      else { m with err := true, recov := true, firmware := [] })
  | .stage2Entry =>
    let g := m.work
    let m' := { m with repairs := g.repairs, disabled := g.disabled.foldl setAdd [] }
    let d := { s.dist with mirror := [], heldMirror := [] }
    let uc := if m.ucImage = [] then Config.defaultMicrocode ((m.firmware.drop 0x14A0).take (imgLen m.firmware)) else m.ucImage
    if m.inReset ∨ m.stage ≠ 1 ∨ m.err then some (isState s)
    else if !g.selfTest ∨ !g.training then mgmt { m' with err := true }
    else some (isState (if !g.microcode ∨ m.verify 2 uc ≠ 0 then
      { s with mgmt := { m' with stage := 2, err := true }, dist := d }
    else { s with
      mgmt := { m' with stage := 2, err := false, ucImage := [], svnFirmware := max m.svnFirmware (imgSvn m.firmware)
                        svnMicrocode := max m.svnMicrocode (imgSvn uc) }
      dist := ucodeLoaded d ((uc.drop 0x14A0).take (imgLen uc)) }))
  | .loadfw => load 1 false
  | .writefw => load 2 true
  | .loaduc => command 3 (some (isState (afterLoaduc s)))
  | .setowner => command 4 (mgmt (if m.ownerDigest.isSome then { m with mbBusy := none, mbResult := 5 }
      else { m with mbBusy := none, mbResult := 0, ownerDigest := some (readBytes m.mbbuf 0 64) }))
  | .mailboxReset =>
    command 5 (if !coresSound s then none
      else some (fun t =>
        t.mgmt == { m with mbBusy := none, mbResult := 0, stage := 0, err := false, recov := false, firmware := []
                           ucImage := [], idKey := identity } &&
        !t.dist.run && !t.dist.img && allTornDown s t &&
        (List.range 8).all (fun h => (t.hart h).pc == Hart.reset.pc && (t.hart h).x == Hart.reset.x &&
          (t.hart h).imem == (s.hart h).imem && (t.hart h).dmem == (s.hart h).dmem)))
  | .resetAssertion => some (fun t => t.core == Core.reset 0 && t.others.isEmpty && t.iris == .reset &&
      t.dist == .reset && t.debugUnit == .reset && t.power == .reset && t.mgmt == { Mgmt.reset with
        work := m.work, flash := m.flash, ownerDigest := m.ownerDigest, svnFirmware := m.svnFirmware, svnMicrocode := m.svnMicrocode })
  | .getVersion => answer true { version := true, caps := false, algs := false } 0x04 0 [0x14]
  | .getCapabilities => answer m.spdm.version { m.spdm with caps := m.spdm.version } 0x61 0 []
  | .negotiateAlgorithms l =>
    let ok := m.spdm.caps && l.contains 65
    answer ok { m.spdm with algs := ok } 0x63 65 []
  | .getDigests => answer m.spdm.algs m.spdm 0x01 0 digest
  | .getCertificate k => answer (m.spdm.algs && k == 0) m.spdm 0x02 k Config.certificates
  | .challenge n => answer m.spdm.algs m.spdm 0x03 0 (digest ++ Config.mldsaSign m.idKey (n ++ digest))
  | .getMeasurements k n =>
    let u := if m.mbBusy = some 3 then afterLoaduc s else s
    let d := Config.shake256 (u.measured k) 64
    some (isState (if m.inReset then s else u.emit
      (if m.spdm.algs ∧ 1 ≤ k ∧ k ≤ 5 then .spdm 0x60 k (d ++ Config.mldsaSign m.idKey (n ++ d)) else .spdm 0x7F 0 [])))
  | .powerSample mw =>
    pow { w with reqPower :=
      if w.plim * 1000 < mw then min 12 (w.reqPower + 1)
      else if mw * 100 < w.plim * 1000 * 95 then w.reqPower - 1 else w.reqPower }
  | .railOvercurrent rail x =>
    let p := { w with reqCurrent := 8, currentFrames := 1025 }
    if x.amps ≤ peakOf rail then some (isState s)
    else if x.amps * 100 ≤ peakOf rail * 110 ∨ x.us < 10 then pow p
    else if coresSound s then some (fun t => t.power == p && allTornDown s t) else none
  | .overcurrentRequestEnd => if w.currentFrames = 0 then pow { w with reqCurrent := 0 } else some (isState s)
  | .thermalLimit c =>
    let p := { w with tj := min 255 c, reqThermal := if 100 ≤ c then 12 else 0 }
    if c < 115 then pow p
    else if coresSound s then some (fun t => t.power == { p with coreClock := false } && allTornDown s t) else none
  | .droopAlarm ⟨p, mv⟩ =>
    let c := s.coreAt p
    if p < 1600 ∧ !c.matrix.alarm ∧ mv < w.droop then some (fun t =>
      (t.coreAt p).matrix == { c.matrix with alarm := true, span := 0 } && t.power.ndroop == (w.ndroop + 1) % 2 ^ 16 &&
      (t.coreAt p).csr.mstat == (if c.matrix.span = 0 then c.csr.mstat ||| 2 else c.csr.mstat))
    else none
  | .droopAlarmDeassert ⟨p, mv⟩ =>
    let c := s.coreAt p
    if p < 1600 ∧ c.matrix.alarm ∧ w.droop ≤ mv then
      some (isState (s.setCore p { c with matrix := { c.matrix with alarm := false, span := 4097 } }))
    else none
  | .halfArraySpanEnd p =>
    let c := s.coreAt p
    if p < 1600 ∧ !c.matrix.alarm ∧ c.matrix.span = 1 then
      some (isState (s.setCore p { c with matrix := { c.matrix with span := 0 } }))
    else none
  | .registerWrite pa v =>
    if !([0x460000000010, 0x460000000014, 0x460000000018, 0x46000000001C].contains pa) then none
    else if !s.inStage 2 then some (isState s.unsupported)
    else if pa = 0x460000000010 then some (isState { s with iris := { s.iris with cto := v } })
    else if pa = 0x460000000014 then some (isState { s with iris := { s.iris with xto := v } })
    else if pa = 0x460000000018 then some (isState { s with iris := { s.iris with wdog := v } })
    else some (isState { s with iris := { s.iris with slim := v &&& 0xFF } })
  | _ => none

end Sys2Proof.Claims

/-! ## The statements -/

open Sys2Proof Sys2Proof.Machine Sys2Proof.Claims

/-- Words written out from the encoding tables decode to the instructions they stand for (R73 to R93, and the
examples of R145 to R174). -/
def Obligations.DecodeKnownWords : Prop :=
  let h : Hdr := { tok := none, limm := none, g := 0 }
  decodeList [0x00818828] = .ok (.sub h 0 3 4 5) ∧
  decodeList [0x09018828] = .ok (.cmpLt h 0 3 4 5) ∧
  decodeList [0x0D030E40] = .ok (.sel h 2 0 6 7 8) ∧
  decodeList [0x11818828] = .ok (.div h 3 4 5) ∧
  decodeList [0x1A818810] = .ok (.fcvtIF h 3 4) ∧
  decodeList [0x7000007F, 0x21145FF8] = .ok (.andi { h with limm := some 0x7F } 5 5 0x1FF) ∧
  decodeList [0x280C4003] = .ok (.cmpiEq { h with g := 3 } 3 4 0) ∧
  decodeList [0x344A3010] = .ok (.ldC h 1 10 12 2) ∧
  decodeList [0x38053000] = .ok (.stE h 0 5 12 0) ∧
  decodeList [0x49010010] = .ok (.loopi h 4 2) ∧
  decodeList [0x4C040000] = .ok (.jr h 1 0) ∧
  decodeList [0x540A6000] = .ok (.pand h 1 2 3) ∧
  decodeList [0x8B10C400] = .ok (.vpermb h 4 3 1) ∧
  decodeList [0xA2101000] = .ok (.mmsz h 2 0 1 0) ∧
  decodeList [0xC0802404] = .ok (.xfill { h with g := 4 } 0 0x24) ∧
  decodeList [0xC5481401] = .ok (.xldg { h with g := 1 } 2 10 0 0)

/-- No bit of an instruction is lost: decoding the words that encode a well-formed instruction gives it back. -/
def Obligations.DecodeEncodeRoundTrip : Prop :=
  ∀ i : Instr, i.hdr.isSome = true → i.wf = true → decodeList (encode i) = .ok i

/-- Where the words at the PC of the current core encode a well-formed instruction and nothing is due at the boundary
before it (R67, R197), a step of the device in which that front end goes is that instruction's execution, in the core
that self-hosted stepping has marked (R451). That the words are fetched at once and that plain data say whose turn it is are the model's (log 77,
log 4). -/
def Obligations.StepRunsDecodedInstruction : Prop :=
  ∀ (i : Instr) (s : State), i.hdr.isSome = true → i.wf = true → wordsAt s.core (encode i) = true →
    noOverlayDue s.core = true → atBoundary s = none →
    (s.turns = [] → s.solo = true → step s = exec i { s with core := s.core.startStep }) ∧
    (∀ ts, s.turns = .front s.core.phys :: ts → s.core.phys < 1600 → s.core.issues = true → s.stilled = false →
      step s = exec i { s with turns := ts, core := s.core.startStep })

/-- What reset leaves: every core holds no task, with every granule empty; the Iris at its reset values; the
distributor does not run; and nothing has left the device (R28, R374, R375, R379, R464). Registers without a stated reset
value are the model's choice (log 2) and no part of this, but that a core reads ABSENT before stage 2; the list of what has
left the device is the model's (log 78). -/
def Obligations.ResetState : Prop :=
  (∀ p, (State.reset.coreAt p).pst = .absent ∧ (State.reset.coreAt p).full = [] ∧ (State.reset.coreAt p).task = none ∧
    (State.reset.coreAt p).phys = p) ∧
  State.reset.iris.phase = 0 ∧ State.reset.iris.cto = 0x01000000 ∧ State.reset.iris.xto = 0x01000000 ∧
  State.reset.iris.wdog = 0x40000000 ∧ State.reset.iris.slim = 8 ∧ State.reset.dist.run = false ∧
  State.reset.mgmt.inReset = true ∧ State.reset.out = []

/-- The memories of the cores, device memory, host memory and staging after reset have their canonical form. -/
def Obligations.ResetMemoriesCanonical : Prop := State.reset.memoriesWf = true

/-- Every step keeps the memories of the cores, device memory, host memory and staging in their canonical form. -/
def Obligations.StepKeepsMemories : Prop :=
  ∀ s t : State, s.memoriesWf = true → step s = .next t → t.memoriesWf = true

/-- s0 reads as zero and p0 as true, and a write to either changes nothing; a group that starts at s0 discards its first
word and writes the others (R14, R16, R17). -/
def Obligations.ConstantRegisters : Prop :=
  ∀ (c : Core) (v : Word) (b : Bool) (n w x : Nat),
    c.reg 0 = 0 ∧ c.setReg 0 v = c ∧ c.pred 0 = true ∧ c.setPred 0 b = c ∧ (c.setGroup n w x).reg 0 = 0 ∧
    (0 < n → n < 64 → (c.setReg n v).reg n = v) ∧ (0 < n → n < 8 → (c.setPred n b).pred n = b) ∧
    (n < 64 → (c.setGroup 0 1 x).reg 1 = BitVec.ofNat 32 (x / 2 ^ 32))

/-- An instruction whose guard is false retires and has no other effect (R18, R69): loop-end action and counts as for
any retirement (R173). -/
def Obligations.GuardFalseRetires : Prop :=
  ∀ (i : Instr) (s : State) (h : Hdr), i.hdr = some h → s.core.pred h.g.toNat = false →
    exec i s = .next { s with core := s.core.retireFrom h 1 s.core }

/-- ADD to MAXU, SEL and the immediate cells: each writes the value of its row to its register group and retires (R145, R147, R157);
and the encoding that R147 gives of a SEL. -/
def Obligations.ArithmeticResults : Prop :=
  (∀ (i : Instr) (s : State) (r : RegWrite), arithResult i s.core = some r → ready s.core i r.hdr = true →
     exec i s = .next { s with core := s.core.retireFrom r.hdr 1 (s.core.setGroup r.dest r.width r.value) }) ∧
  decodeList [0x0D030E40] = .ok (.sel { tok := none, limm := none, g := 0 } 2 0 6 7 8)

/-- MUL, MULH, MULHU, DIV, DIVU, REM and REMU, on all operands (R148, R149); and the encoding that R149 gives of a DIV. -/
def Obligations.MultiplyDivideResults : Prop :=
  (∀ (i : Instr) (s : State) (r : RegWrite), mulDivResult i s.core = some r → ready s.core i r.hdr = true →
     exec i s = .next { s with core := s.core.retireFrom r.hdr 1 (s.core.setGroup r.dest r.width r.value) }) ∧
  decodeList [0x11818828] = .ok (.div { tok := none, limm := none, g := 0 } 3 4 5)

/-- CLZ, CTZ, POPC, BREV, BILV, BDLV, BFX and BFI. -/
def Obligations.BitCellResults : Prop :=
  ∀ (i : Instr) (s : State) (r : RegWrite), bitResult i s.core = some r → ready s.core i r.hdr = true →
    exec i s = .next { s with core := s.core.retireFrom r.hdr 1 (s.core.setGroup r.dest r.width r.value) }

/-- CMP, CMPI, FCMP and the predicate cells write the truth of their row to their predicate and set no flag (R146, R156, R158,
R159); and the encodings that R159 gives. -/
def Obligations.ComparisonResults : Prop :=
  (∀ (i : Instr) (s : State) (h : Hdr) (d : Nat) (b : Bool), truth i s.core = some (h, d, b) →
     ready s.core i h = true → exec i s = .next { s with core := s.core.retireFrom h 1 (s.core.setPred d b) }) ∧
  decodeList [0x540A6000] = .ok (.pand { tok := none, limm := none, g := 0 } 1 2 3) ∧
  decodeList [0x54E40000] = .ok (.pnot { tok := none, limm := none, g := 0 } 4 4)

/-- FADD, FMUL, FMA, FMIN, FMAX and FCVT write the code of their row and set the sticky bits of FPCTL for its
conditions. -/
def Obligations.FloatResults : Prop :=
  ∀ (i : Instr) (s : State) (h : Hdr) (d code flags : Nat), fpResult i s.core = some (h, d, code, flags) →
    ready s.core i h = true →
    exec i s = .next { s with core := s.core.retireFrom h 1 (fpCore s.core d code flags) }

/-- The operations on values that the rounded results rest on are exact, and those on infinities follow R153. -/
def Obligations.ExactValueArithmetic : Prop :=
  (∀ (x y : Val) (down : Bool) (p q : ℚ), ratOf x = some p → ratOf y = some q →
    (∀ b n d, x = .fin b n d → d ≠ 0) → (∀ b n d, y = .fin b n d → d ≠ 0) →
    ratOf (x.add down y).1 = some (p + q) ∧ (x.add down y).2 = false ∧
    ratOf (x.mul y).1 = some (p * q) ∧ (x.mul y).2 = false) ∧
  (∀ (b down : Bool), ((Val.inf b).add down (.inf (!b))) = (.nan, true) ∧
    ((Val.inf b).mul .zero) = (.nan, true) ∧ (Val.zero.mul (.inf b)) = (.nan, true)) ∧
  (∀ k : Int, ratOf (.ofInt k) = some (k : ℚ))

/-- Rounding to an integer format: a value within the range goes to an integer next to it, the nearest under RNE with
ties to even, and in the direction of a directed mode; NX is reported where it is inexact; a value at least 1 beyond the range
gives the nearer end and NV (R124 to R126, R128; that NV is reported alone is the model's choice, log 31). Rounding to FP32, BF16, FP16 and E5M2: to the nearest finite value, ties to
the even code, or to the neighbour in the direction of the mode, with the sign of the value, NX where it is inexact, and UF
where it then lies below the smallest normal value; beyond the largest finite value the overflow table, with OF and NX;
NaN and infinities (R126, R128). Left out are values strictly between an end of an integer range and 1 beyond it, NaN and
infinities into integer formats, the formats without infinities, and overflow under SR. -/
def Obligations.RoundingResults : Prop :=
  (∀ (f : Fmt) (lo hi : Int) (m : Mode) (sat neg : Bool) (n d : Nat) (x : ℚ), f.int? = some (lo, hi) → d ≠ 0 →
    ratOf (.fin neg n d) = some x →
    ((lo : ℚ) ≤ x → x ≤ hi → ∃ v : Int, (round f m sat (.fin neg n d)).code = (v % 2 ^ f.width).toNat ∧
      roundedTo m x v ∧ (round f m sat (.fin neg n d)).flags = if (v : ℚ) = x then 0 else 16) ∧
    (x ≤ (lo : ℚ) - 1 → round f m sat (.fin neg n d) = ⟨(lo % 2 ^ f.width).toNat, 1⟩) ∧
    ((hi : ℚ) + 1 ≤ x → round f m sat (.fin neg n d) = ⟨(hi % 2 ^ f.width).toNat, 1⟩)) ∧
  (∀ (f : Fmt) (m : Mode) (sat neg : Bool) (n d : Nat) (x normal : ℚ), f.hasInf = true → d ≠ 0 →
    ratOf (.fin neg n d) = some x → codeValue f (2 ^ ((f.float?.map (fun q => q.2.1)).getD 0)) = some normal →
    (staysFinite f m x → ∃ y, codeValue f (round f m sat (.fin neg n d)).code = some y ∧
      chosen f m x (round f m sat (.fin neg n d)).code y ∧
      (round f m sat (.fin neg n d)).code / 2 ^ (f.width - 1) = bit neg ∧
      (round f m sat (.fin neg n d)).flags = if y = x then 0 else if |x| < normal then 24 else 16) ∧
    ((∀ r, m ≠ .sr r) → ¬staysFinite f m x → round f m sat (.fin neg n d) = ⟨overflowTo f m sat neg, 20⟩)) ∧
  (∀ (f : Fmt) (m : Mode) (sat neg : Bool), f.hasInf = true →
    round f m false (.inf neg) = ⟨overflowTo f .rne false neg, 0⟩ ∧
    round f m true (.inf neg) = ⟨overflowTo f m true neg, 20⟩ ∧
    (round f m sat .nan).flags = 0 ∧ f.value (round f m sat .nan).code = .nan)

/-- The loads of class 0x3 that meet no check write the bytes at their address, and those of qualifier C leave their
granules empty (R160, R161, R165; that words above the bound of the window raise no POISON is log 29). -/
def Obligations.LoadResults : Prop :=
  ∀ (i : Instr) (s : State) (f : LoadForm), loadForm i s.core = some f → ready s.core i f.hdr = true →
    loadAllowed s.core f = true →
    exec i s = .next { s with core := s.core.retireFrom f.hdr 1 (loaded s.core f) }

/-- LDP that meets no check reads the bytes below its bound and zeroes above, with PWOOB (R164; that an access which straddles
4,096 raises no ALIGN is log 97, and that words above the bound raise no POISON log 29). -/
def Obligations.ParameterLoadResults : Prop :=
  ∀ (i : Instr) (s : State) (f : LoadForm), paramForm i s.core = some f → ready s.core i f.hdr = true →
    paramAllowed s.core f = true →
    exec i s = .next { s with core := s.core.retireFrom f.hdr 1 (paramLoaded s.core f) }

/-- The stores of class 0x3 that meet no check store the low bytes of their group. -/
def Obligations.StoreResults : Prop :=
  ∀ (i : Instr) (s : State) (f : StoreForm), storeForm i s.core = some f → ready s.core i f.hdr = true →
    storeAllowed s.core f = true →
    exec i s = .next { s with core := s.core.retireFrom f.hdr 1 (s.core.storeLocal f.addr f.size f.value) }

/-- FEQ reads a full/empty bit; FESET and FECLR set and clear a range of granules, 64 in a core cycle in ascending order
(R166): the last of them retires, and the others leave the instruction at the front end. -/
def Obligations.FullEmptyResults : Prop :=
  (∀ (i : Instr) (s : State) (h : Hdr) (c : Core) (k : Nat), granuleCell i s.core = some (h, c, k) →
    ready s.core i h = true → exec i s = .next { s with core := s.core.retireFrom h k c }) ∧
  (∀ (i : Instr) (s : State) (h : Hdr) (c : Core), rangeCycle i s.core = some (h, c) → ready s.core i h = true →
    exec i s = .next { s with core := c })

/-- BR, BRL, JR and JRL to an aligned target write it to the PC; BRL and JRL write the link to s1; BR and JR leave the
loop levels that do not hold the target (R170, R171, R174; that the link of a main word at 0xFFFC is 0 is log 127). -/
def Obligations.ControlTransferResults : Prop :=
  ∀ (i : Instr) (s : State) (r : Transfer), transfer i s.core = some r → ready s.core i r.hdr = true →
    let left := match r.link with
      | some l => s.core.setReg 1 (BitVec.ofNat 32 l)
      | none => s.core.popLevels (BitVec.ofNat 16 r.target)
    exec i s = .next { s with core := wentTo s.core left r.target 3 }

/-- LOOP and LOOPI with a free level open it and enter the body, or skip the body where the count is 0 (R172; that they take
no loop-end action is log 33, and their cost of 1 log 98). -/
def Obligations.LoopCellResults : Prop :=
  ∀ (i : Instr) (s : State) (h : Hdr) (c : Core), loopNext i s.core = some (h, c) → ready s.core i h = true →
    exec i s = .next { s with core := c }

/-- What a taken BR or JR does to the loop levels: it pops from the innermost level on while the body does not hold the
target, and changes nothing else but the trace (R174). -/
def Obligations.TakenTransferPopsLevels : Prop :=
  ∀ (c : Core) (t : Pc), c.csr.lpdep.toNat ≤ 4 →
    (c.popLevels t).csr.lpdep.toNat = levelsLeft c t.toNat c.csr.lpdep.toNat ∧
    c.popLevels t = { c with csr := { c.csr with lpdep := (c.popLevels t).csr.lpdep }, dbg := (c.popLevels t).dbg }

/-- Retirement at the end of the innermost loop body (R173): the trip count falls by one, and the PC goes back to the
start of the body until it is 0, when the level closes; elsewhere the PC goes on behind the instruction. Bits of LPBEG and
LPFIN outside [15:2] are the model's choice (log 98). -/
def Obligations.RetirementLoopEnd : Prop :=
  ∀ (c : Core) (h : Hdr) (cost : Nat), c.csr.lpdep.toNat ≤ 4 →
    let t := c.retireFrom h cost c
    let k := c.csr.lpdep.toNat - 1
    let words := 1 + bit h.tok.isSome + bit h.limm.isSome
    let here := decide (0 < c.csr.lpdep.toNat) &&
      (List.range words).any (fun j => (c.pc.toNat + 4 * j) % 2 ^ 16 == (loopReg c.csr.lpfin k).toNat)
    let next := BitVec.ofNat 16 (c.pc.toNat + 4 * words)
    let left := loopReg c.csr.lpcnt k - 1
    t.csr.retired = c.csr.retired + 1 ∧ t.csr.cycle = c.csr.cycle + BitVec.ofNat 64 cost ∧ t.held = none ∧
    (here = false → t.pc = next ∧ t.csr.lpcnt = c.csr.lpcnt ∧ t.csr.lpdep = c.csr.lpdep) ∧
    (here = true → t.csr.lpcnt = c.csr.lpcnt.setIfInBounds k left ∧
      (left ≠ 0 → t.csr.lpdep = c.csr.lpdep ∧ t.pc = BitVec.ofNat 16 ((loopReg c.csr.lpbeg k).toNat % 2 ^ 16 / 4 * 4)) ∧
      (left = 0 → t.csr.lpdep.toNat = k ∧ t.pc = next))

/-- CSRR writes what its CSR reads, and a pair at one moment; CSRs that are fields read as those fields, STATUS as its
field map (R45, R46, R48, R188). -/
def Obligations.CsrReadResults : Prop :=
  (∀ (i : Instr) (s : State) (r : RegWrite), csrReadResult i s = some r → ready s.core i r.hdr = true →
    exec i s = .next { s with core := s.core.retireFrom r.hdr 1 (s.core.setGroup r.dest r.width r.value) }) ∧
  (∀ (det : Bool) (time : BitVec 64) (c : Core) (i : Nat) (v : Word), csrField time c i = some v →
    csrRead det time c i = v) ∧
  (∀ (det : Bool) (time : BitVec 64) (c : Core), csrRead det time c 0 = BitVec.ofNat 32 (statusFields det c))

/-- CSRW, CSRS and CSRC where the write is permitted and nothing holds it: one CSR, or a pair (R188 to R190; who may write
EVEC and the debug CSRs is log 26, the bits stored of EVEC log 27, and of LPDEP log 25). -/
def Obligations.CsrWriteResults : Prop :=
  ∀ (i : Instr) (s : State) (h : Hdr) (cell w d n : Nat) (c : Core), csrWriteForm i = some (h, cell, w, d, n) →
    csrWritten s cell w d n = some c → ready s.core i h = true →
    exec i s = .next { s with core := s.core.retireFrom h 1 c }

/-- What a permitted write stores, and that every other CSR reads as before: of the CSRs that hold plain data (R188; the bits
stored of EVEC are log 27, and of LPDEP log 25; that the MPC of an idle engine reads back what was written is the model's
choice, log 115); of those with rules of their own, where CFLSEL also selects what CFLDATA
reads, a one in VSTAT clears the fault record of its channel and CLR of CFLSEL every counter (R287, R461); of XNEXT and XDONE,
where XDONE goes on to the first identifier that has not completed (R190, R278, R502). -/
def Obligations.CsrWriteReadsBack : Prop :=
  ∀ (det : Bool) (time : BitVec 64) (c : Core) (cell i : Nat) (v : Word),
    let k := csrApply c (csrOp cell) i v
    (∀ (m j : Nat), plainCsr i = some m →
      csrRead det time k j =
        if j = i then (csrRead det time c i &&& ~~~(BitVec.ofNat 32 m)) |||
          (csrNew cell (csrRead det time c i) v &&& BitVec.ofNat 32 m)
        else csrRead det time c j) ∧
    (∀ w, specialCsr cell i (csrRead det time c i) v = some w →
      csrRead det time k i = w ∧ (∀ j, j ≠ i → ¬(i = 0x080 ∧ j = 0x081) → csrRead det time k j = csrRead det time c j) ∧
      (∀ ch : Fin 4, k.faultRec[ch] = if i = 0x052 ∧ bitAt v.toNat (8 + ch) = 1 then 0 else c.faultRec[ch]) ∧
      (i = 0x080 → bitAt (csrNew cell (csrRead det time c i) v).toNat 31 = 1 →
        ∀ q b, q < 12 → b < 64 → tabGet k.dbg.conflicts (64 * q + b) = 0)) ∧
    (∀ ch, ch < 4 → i = 0x040 + ch ∨ i = 0x044 + ch →
      let x := csrNew cell (csrRead det time c i) v
      let next := if i = 0x040 + ch then x else vec4 c.csr.xnext ch
      let now := if i = 0x044 + ch then x else vec4 c.csr.xdone ch
      csrRead det time k (0x040 + ch) = next ∧ csrRead det time k (0x044 + ch) = doneFrom c ch next now ∧
      (∀ j, j ≠ 0x040 + ch → j ≠ 0x044 + ch → csrRead det time k j = csrRead det time c j))

/-- The system cells where nothing refuses or holds them: NOP, ITER, SYNC, ERET, SVC, BKPT, QPOP, QSTAT, RNG and LEND (R176,
R179, R181 to R186, R191 to R193, R199). That the first ERET of a resumed task restores what was saved of the sticky bits is log
92, and the cost of a BKPT that halts log 102. -/
def Obligations.SystemCellResults : Prop :=
  ∀ (i : Instr) (s t : State) (h : Hdr), i.hdr = some h → ready s.core i h = true → systemNext i s = some t →
    exec i s = .next t

/-- A vector cell whose checks pass is queued for V with what it names (R22, R38, R41, R201 to R209). -/
def Obligations.VectorDispatch : Prop :=
  ∀ (i : Instr) (s : State) (f : EngineForm), vectorForm i s.core = some f → mayDispatch s.core f.hdr .V = true →
    f.good = true →
    exec i s = .next { s with core := dispatched s.core s.core i f.hdr .V (f.uses.map (·.h)) f.scalars 0 }

/-- A matrix cell whose checks pass is queued for M (R241). -/
def Obligations.MatrixDispatch : Prop :=
  ∀ (i : Instr) (s : State) (f : EngineForm), matrixForm i s.core = some f → mayDispatch s.core f.hdr .M = true →
    f.good = true →
    exec i s = .next { s with core := dispatched s.core s.core i f.hdr .M (f.uses.map (·.h)) f.scalars 0 }

/-- A local copy whose checks pass is queued for L (R272 to R274). -/
def Obligations.LocalCopyDispatch : Prop :=
  ∀ (i : Instr) (s : State) (f : EngineForm), copyForm i s.core = some f → mayDispatch s.core f.hdr .L = true →
    f.good = true →
    exec i s = .next { s with core := dispatched s.core s.core i f.hdr .L (f.uses.map (·.h)) f.scalars 0 }

/-- A transfer whose checks pass is queued for E and takes the next identifier of its channel (R275, R282, R283). The corners
of the checks are the model's reading: the operand handle of XATM (log 45), the operands of XPF (log 71), the order of the
checks (log 73), the ranges of XGTH and XENC (log 74) and the group size codes 0 and 7 (log 131). -/
def Obligations.TransferDispatch : Prop :=
  ∀ (i : Instr) (s : State) (f : XferForm), xferForm i s.core = some f → mayDispatch s.core f.hdr .E = true →
    f.trap s.core (main i) = none →
    let id := vec4 s.core.csr.xnext f.chan
    let counted : Core := { s.core with csr := { s.core.csr with
      xnext := s.core.csr.xnext.setIfInBounds f.chan (id + 1) } }
    exec i s = .next { s with core := dispatched s.core counted i f.hdr .E (f.uses.map (·.h)) f.scalars id }

/-- XARM, XWAIT and XFENCE are queued for E (R307 to R309). -/
def Obligations.ExchangeWaitDispatch : Prop :=
  ∀ (i : Instr) (s : State) (h : Hdr) (xs : List Nat), waitForm i s.core = some (h, xs, true) →
    mayDispatch s.core h .E = true →
    exec i s = .next { s with core := dispatched s.core s.core i h .E [] xs 0 }

/-- The steps of V whose accesses pass (R202, R204). Over one element, the whole state: the element is written with the value
of its cell and rounded, the conditions are noted, and the instruction completes. Of any shape: memory after the step, by the
cells of R216 to R239, the conditions and VSTAT bits noted (R214, R215), the entry that a .Q cell pushes (R232), and that MPC
counts the step or the instruction completes. That VMSEL reads both sources is log 116, the conditions of a row log 39, a
zero difference in VNORM log 86, the values within the bounds of R217 log 7. -/
def Obligations.VectorElementResults : Prop :=
  (∀ (p : Nat) (s : State) (x : Entry) (d : HandleBits) (r : Nat × Nat × Nat), mayStep s p = true →
    oneStep (s.coreAt p) x = true → x.handles.head? = some d → oneResult (s.coreAt p).mem x d = some r →
    exec (.vStep p) s = .next (s.setCore p (afterOne (s.coreAt p) d r))) ∧
  (∀ (p : Nat) (s : State) (x : Entry) (r : Effects), mayStep s p = true → vectorGoes (s.coreAt p) x = true →
    vectored (s.coreAt p) x (s.coreAt p).engV.mpc.toNat = some r →
    let c := s.coreAt p
    ∃ t, exec (.vStep p) s = .next t ∧ (t.coreAt p).mem = r.mem ∧ (t.coreAt p).regs = c.regs ∧
      (t.coreAt p).csr.fpctl = c.csr.fpctl ||| BitVec.ofNat 32 (r.flags * 2 ^ 16) ∧
      (t.coreAt p).csr.vstat = c.csr.vstat ||| BitVec.ofNat 32 r.stat ∧
      (∀ n, n < 4 → (t.coreAt p).queue n = c.queue n ++ ((r.push.filter (fun q => q.1 == n)).toList.map
        (fun q => BitVec.ofNat 32 q.2))) ∧
      (t.coreAt p).engV = if c.engV.mpc.toNat + 1 = entrySteps x then afterHead c.engV
        else { c.engV with mpc := c.engV.mpc + 1, pushing := none })

/-- The steps of M. MCFG, MDRN or MSTAT at the head of its queue (R248, R254, R264, R265), and MWS behind a head whose work
has ended (R247, R256; the order of such steps is the model's, log 8). The steps of MMS, MMSZ, MSCL.C, MSCL.R, MZA, MRD
and MWR whose accesses pass: what the tile or the destination then holds, nothing else of local memory changes, and MPC
counts the step (R134 to R138, R245, R258, R260 to R263). The steps of MWL and MSCL.K: the weights and scales of the shadow
plane (R242, R255, R257; 1 for the blocks of an MWL beyond its rows is the model's choice, log 87). That scaled integer pairs
follow R137 and a zero integer product is +0 is log 42, the factor 1 for an empty handle of MSCL.K log 44, and APS of a
plane that is loading log 117. -/
def Obligations.MatrixStepResults : Prop :=
  ∀ (p : Nat) (s : State), mayStep s p = true →
    (∀ (x : Entry) (c : Core), headReady (s.coreAt p) (s.coreAt p).engM x = true →
      afterMatrix (s.coreAt p) x = some c → exec (.mStep p 0) s = .next (s.setCore p c)) ∧
    (∀ (k : Nat) (x : Entry), (s.coreAt p).engM.queue[k]? = some x → x.handles = [] →
      swapAhead (s.coreAt p) k = true → exec (.mStep p k) s = .next (s.setCore p (afterSwap (s.coreAt p)))) ∧
    (∀ (x : Entry) (m : Mem), headReady (s.coreAt p) (s.coreAt p).engM x = true →
      streamed (s.coreAt p) x (s.coreAt p).engM.mpc.toNat = some m →
      ∃ t, exec (.mStep p 0) s = .next t ∧ (t.coreAt p).mem = m ∧
        (t.coreAt p).engM.queue = (s.coreAt p).engM.queue ∧ (t.coreAt p).engM.mpc = (s.coreAt p).engM.mpc + 1) ∧
    (∀ (x : Entry) (js : List Nat) (v : PlaneView), headReady (s.coreAt p) (s.coreAt p).engM x = true →
      columnsLoaded (s.coreAt p) x (s.coreAt p).engM.mpc.toNat = some (js, v) →
      ∃ t, exec (.mStep p 0) s = .next t ∧ (t.coreAt p).mem = (s.coreAt p).mem ∧
        (t.coreAt p).matrix.active = (s.coreAt p).matrix.active ∧
        (∀ k j, k < 256 → j ∈ js → (planeView (t.coreAt p).matrix.shadow).weight k j = v.weight k j ∧
          (planeView (t.coreAt p).matrix.shadow).scale k j = v.scale k j) ∧
        ((s.coreAt p).engM.mpc ≠ 0 → ∀ k j, k < 256 → j < 64 → j ∉ js →
          (planeView (t.coreAt p).matrix.shadow).weight k j = (planeView (s.coreAt p).matrix.shadow).weight k j) ∧
        (7 ∈ js.map (· / 8) → (t.coreAt p).matrix.shadow.state = .loaded)) ∧
    (∀ (x : Entry) (f : Nat → Val), headReady (s.coreAt p) (s.coreAt p).engM x = true → (s.coreAt p).engM.mpc = 0 →
      columnScales (s.coreAt p) x = some f →
      ∃ t, exec (.mStep p 0) s = .next t ∧ (t.coreAt p).mem = (s.coreAt p).mem ∧
        (∀ k j, k < 256 → j < 64 → (planeView (t.coreAt p).matrix.shadow).scale k j = f j ∧
          (planeView (t.coreAt p).matrix.shadow).weight k j = (planeView (s.coreAt p).matrix.shadow).weight k j))

/-- The steps of L. XFILL or XCPY over one element, the whole state (R272, R274); and a step of XCPY, XTRN or XFILL of any
shape whose accesses pass (R271 to R274): memory after it, and that MPC counts the step or the instruction completes. -/
def Obligations.LocalCopyStepResults : Prop :=
  (∀ (p : Nat) (s : State) (x : Entry) (c : Core), mayStep s p = true →
    headReady (s.coreAt p) (s.coreAt p).engL x = true → (s.coreAt p).engL.mpc = 0 →
    (s.coreAt p).lmet = none → afterCopy (s.coreAt p) x = some c →
    exec (.lStep p) s = .next (s.setCore p c)) ∧
  (∀ (p : Nat) (s : State) (x : Entry) (m : Mem), mayStep s p = true → copyGoes (s.coreAt p) x = true →
    copied (s.coreAt p) x (s.coreAt p).engL.mpc.toNat = some m →
    let c := s.coreAt p
    ∃ t, exec (.lStep p) s = .next t ∧ (t.coreAt p).mem = m ∧ (t.coreAt p).regs = c.regs ∧
      (t.coreAt p).engL = if c.engL.mpc.toNat + 1 = entrySteps x then afterHead c.engL
        else { c.engL with mpc := c.engL.mpc + 1 })

/-- A held front end goes on when what it waits for is so: the step that ends the hold executes the held instruction. -/
def Obligations.HoldsEnd : Prop :=
  ∀ (i : Instr) (s : State) (p : Nat) (x : Held), frontOf i = some p → frontFree s p = true →
    (s.select p).core.held = some x → x.instr.hdr.isSome = true → holdEnds i (s.select p).core x = true →
    ∃ t, exec i s = .next t ∧ exec x.instr (s.select p) = .next t

/-- The steps of the exchange engine that are due, with what they leave: what begins, is deferred, is refused or freezes E
(R276, R283, R287 to R289, R310), the pieces of every transfer (R285, R289 to R302, R417, R424), completion with DONE_E and
XDONE (R277, R278), landing counters, waits and fences (R304, R307 to R309), overlays (R111) and mesh errors (R431). The order
of the checks at begin is log 73, the operand handle of XATM log 45, and the address in a fault record log 89; what a landing
reads of full bits is log 103, the poison that travels log 105, XOVL's reads of staging log 106, and group offsets log 119. That
an XST which fails after its beginning queues no write-back is log 74, the ring index in the LAUNCH event log 75, and that the
source of XBC is read with each piece log 51; what has landed of an overlay whose translation fails is log 123, what a failure
at the beginning writes log 124, and the entries of a gather behind the list's last log 130. -/
def Obligations.ExchangeSteps : Prop :=
  ∀ (i : Instr) (s : State) (P : State → Bool), exchangeEvent i s = some P → ∃ t, exec i s = .next t ∧ P t = true

/-- The steps of the memory ports that are due, with what they leave: walks and their results, fills and write-backs, errors
of the memories and the block list, refresh and shoot-downs (R292, R294, R344 to R346, R353 to R361). When corrected errors
are counted is log 52, which reads meet an uncorrectable one log 88, and what a step that arrives before stage 1 answers
log 78; a walk that meets a listed block and the reserved bits of an ASID entry are log 46, ADDR of a fault record log 89, the
order of two fills that are acquires log 122. -/
def Obligations.MemoryPortSteps : Prop :=
  ∀ (i : Instr) (s : State) (P : State → Bool), memoryEvent i s = some P → ∃ t, exec i s = .next t ∧ P t = true

/-- The steps of the Iris that are due, with what they leave: the phases and their timers, pre-emption, checkpoints, freezes
and faults of those that are late (R364 to R375, R391, R408, R452 to R457). The corners of a second expiry are log 55, the
energy of a superstep log 66, a member that ends with writes held log 96, and that the exchange which begins counts for a
checkpoint log 47. That a delivery turns a HALTED core whose held state is COMPUTE into a STRAGGLER is the model's choice, log
91, and the fresh timers are log 5; the slots of sliced gangs are log 49, and an XLDG that has all its data at the time-out log
125. -/
def Obligations.IrisSteps : Prop :=
  ∀ (i : Instr) (s : State) (P : State → Bool), irisEvent i s = some P → ∃ t, exec i s = .next t ∧ P t = true

/-- The steps of the work distributor that are due, with what they leave: doorbells, launches and their answers, ends, kills,
the sorter, scoreboards, streams and graphs (R378 to R412). The tags of the sorter are log 18, the corners of a scoreboard
log 57, those of LBGO log 58, and the fields of events that are not stated log 17; a signal to a node of another kind is log 50,
reserved bytes of nodes and descriptors log 93, and the stage that a launch needs and what waits while no hart runs the
microcode log 111. That LBGO leaves the state as it is while an END event waits for room is log 110, and that a torn-down
context's fills are dropped log 75. -/
def Obligations.DistributorSteps : Prop :=
  ∀ (i : Instr) (s : State) (P : State → Bool), distributorEvent i s = some P → ∃ t, exec i s = .next t ∧ P t = true

/-- The instructions of a hart that runs, and the state that each leaves (R376 to R378; that they mean what the RISC-V
specifications say is log 14). Setting RUN is stated where no work of the microcode waits (log 111). -/
def Obligations.HartSteps : Prop :=
  ∀ (i : Instr) (s t : State), hartEvent i s = some t → exec i s = .next t

/-- The steps of the codec engines that are due, with what they leave: rows coded, chunks and their records, messages, and
decoded rows (R413 to R426). The bytes of bitstreams and samples are free (log 11); the corners are log 60, log 93 and
log 95, and the pending records of a ring log 112. -/
def Obligations.CodecSteps : Prop :=
  ∀ (i : Instr) (s : State) (P : State → Bool), codecEvent i s = some P → ∃ t, exec i s = .next t ∧ P t = true

/-- What arrives at the ports, with what it leaves: requests of the host and of peers, the mask of an MSI-X entry, link
errors, and the messages of the peer reduction unit (R431 to R446, R465). Hostile peers are log 23, the stage that each
unit needs log 65, the form of answers log 78, and the place and the reset of MSI-X masks log 80; a result range outside the
staging is log 108, an access of a peer and an AtomicOp to a busy window log 109. -/
def Obligations.PortSteps : Prop :=
  ∀ (i : Instr) (s : State) (P : State → Bool), portEvent i s = some P → ∃ t, exec i s = .next t ∧ P t = true

/-- The steps of the debug and trace unit that are due, with what they leave: commands, window accesses, stops, steps and
trace records (R447 to R462). Accesses at other offsets are log 62, the form of answers log 78, instruction memory
log 96, and a halt while STEP.D waits log 126. -/
def Obligations.DebugSteps : Prop :=
  ∀ (i : Instr) (s : State) (P : State → Bool), debugEvent i s = some P → ∃ t, exec i s = .next t ∧ P t = true

/-- The steps of the management and power controllers, with what they leave: reset and the stages, images and microcode, SPDM,
and power (R464 to R475). Digests and signatures are free (log 12), SPDM answers log 13, the shipped microcode log 14, the
order of an image's checks log 20, what a reset keeps log 61, a rail far above its peak log 64, frames log 79, and
how the work of a stage goes log 101. -/
def Obligations.ManagementSteps : Prop :=
  ∀ (i : Instr) (s : State) (P : State → Bool), managementEvent i s = some P → ∃ t, exec i s = .next t ∧ P t = true

/-- Trap entry (R194): STATUS goes to ESTATUS, the core is in supervisor mode, CAUSE, EPC and ETVAL hold the trap's values,
the PC is that of EVEC, and nothing else changes but the held instruction, CYCLE (by 4, log 70) and the trace. -/
def Obligations.TrapEntry : Prop :=
  ∀ (c : Core) (det : Bool) (t : Trap),
    c.enterTrap det t = { c with
      pc := BitVec.ofNat 16 (bits c.csr.evec.toNat 15 2 * 4)
      held := none
      csr := { c.csr with
        estatus := BitVec.ofNat 32 (statusFields det c)
        priv := true
        cause := t.cause
        epc := t.epc.zeroExtend 32
        etval := t.etval
        cycle := c.csr.cycle + 4 }
      dbg := { c.dbg with fifo := (c.enterTrap det t).dbg.fifo, dropped := (c.enterTrap det t).dbg.dropped } } ∧
    t.cause.toNat = (t.code + 2 ^ 8 * t.word + 2 ^ 10 * t.eng + 2 ^ 12 * bit t.imp + 2 ^ 13 * t.sub) % 2 ^ 32

/-- A precise trap in supervisor mode enters no handler (R198): nothing of the instruction is written, the core is ABSENT,
and where it held a task the work distributor is told of a context fault with the trap's CAUSE and EPC, and holds its ETVAL, for which a CFAULT event has no
field (R378; that the event names the context in CTX is log 17). First the traps that instructions raise in place of their
effect: privilege (EVEC without SUPOK among them), phase, memory, control, CSR writes that no mode may make, dispatch, a full
queue, QDEAD; then SVC and BKPT, which retire first (R193); words that decode to nothing, and fetch faults (R63, R66,
R345). The readings of the traps are those of logs 26, 28 to 30, 38, 45, 69, 71, 73, 74, 97, 98, 103, 114 and 131. -/
def Obligations.DoubleTraps : Prop :=
  (∀ (i : Instr) (s : State) (h : Hdr) (code sub v : Nat), i.hdr = some h → s.core.csr.priv = true →
    preciseTrap i s h = some (code, sub, v) →
    ∃ t, exec i s = .next t ∧ doubleTrapped s (code + 2 ^ 13 * sub) s.core.pc.toNat v t) ∧
  (∀ (s : State) (h : Hdr) (k : BitVec 11), s.core.csr.priv = true →
    let epc := (s.core.retireFrom h 0 s.core).pc.toNat
    (ready s.core (.svc h k) h = true → ∃ t, exec (.svc h k) s = .next t ∧ doubleTrapped s 0x10 epc k.toNat t) ∧
    (ready s.core (.bkpt h k) h = true → s.core.csr.dbgctl.toNat % 2 = 0 →
      ∃ t, exec (.bkpt h k) s = .next t ∧ doubleTrapped s 0x11 epc k.toNat t)) ∧
  (∀ (s : State) (sub : BitVec 3) (v : BitVec 32), s.core.csr.priv = true →
    ∃ t, exec (.unallocatedWord sub v) s = .next t ∧ doubleTrapped s (1 + 2 ^ 13 * sub.toNat) s.core.pc.toNat v.toNat t) ∧
  (∀ (s : State) (w : Nat), s.core.csr.priv = true → w < 3 →
    let a := (s.core.pc.toNat + 4 * w) % 2 ^ 16
    (∃ t, exec (.instructionFetchFault w .invalid) s = .next t ∧
      doubleTrapped s (4 + 2 ^ 8 * w) s.core.pc.toNat (a / 4096 * 4096) t) ∧
    (∃ t, exec (.instructionFetchFault w .notExecutable) s = .next t ∧
      doubleTrapped s (4 + 2 ^ 8 * w + 2 ^ 13) s.core.pc.toNat (a / 4096 * 4096) t) ∧
    (∃ t, exec (.instructionFetchFault w .poisoned) s = .next t ∧
      doubleTrapped s 6 s.core.pc.toNat (a / 8 * 8) t))

/-- The precise traps of the scalar memory cells in user mode, in the order of R160. The model's readings: ETVAL of LDP
(log 28) and its access that straddles 4,096 (log 97), words above the bound (log 29), FEQ (log 30), the writers that W waits for (log 38) and
ST.E outside the scratchpad (log 69). -/
def Obligations.MemoryTraps : Prop :=
  ∀ (i : Instr) (s : State) (h : Hdr) (code sub v : Nat), i.hdr = some h → ready s.core i h = true →
    s.core.csr.priv = false → memoryTrap i s.core = some (code, sub, v) →
    ∃ t, exec i s = .next t ∧ trapTaken s code sub v t = true

/-- The precise traps of JR, JRL, LOOP, LOOPI, QPOP and LEND in user mode (R171, R172, R183, R186; that of LOOP and LOOPI at
LPDEP 5 to 7 is log 98). -/
def Obligations.ControlTraps : Prop :=
  ∀ (i : Instr) (s : State) (h : Hdr) (code sub v : Nat), i.hdr = some h → ready s.core i h = true →
    s.core.csr.priv = false → controlTrap i s.core = some (code, sub, v) →
    ∃ t, exec i s = .next t ∧ trapTaken s code sub v t = true

/-- The privilege traps of ERET and of CSR accesses in user mode (R43, R45, R46, R189, R199; which SUB the EVEC and debug
CSRs take is log 26, and which CSR of a pair is asked first and whose index ETVAL then holds the model's choice, log 114). -/
def Obligations.PrivilegeTraps : Prop :=
  ∀ (i : Instr) (s : State) (h : Hdr) (code sub v : Nat), i.hdr = some h → s.core.guard h = true →
    s.core.csr.priv = false → privilegeTrap i s = some (code, sub, v) →
    ∃ t, exec i s = .next t ∧ trapTaken s code sub v t = true

/-- The phase traps in user mode (R54). -/
def Obligations.PhaseTraps : Prop :=
  ∀ (i : Instr) (s : State) (h : Hdr) (code sub v : Nat), i.hdr = some h → s.core.guard h = true →
    s.core.csr.priv = false → phaseTrap i s.core = some (code, sub, v) →
    ∃ t, exec i s = .next t ∧ trapTaken s code sub v t = true

/-- An engine instruction that fails a check at dispatch raises a precise trap, ILLEGAL, ALIGN or XFAULT, with the SUB and
ETVAL of the first check that fails in the order of R21, R206, R241 and R283, and nothing is queued: the state differs from
the one before by the trap entry alone. The order of the checks of a transfer and the ETVAL of misaligned rows are log
73, the operand handle of XATM log 45, the operands of XPF log 71, the ranges of XGTH and XENC log 74, the group size codes 0
and 7 log 131. -/
def Obligations.DispatchChecksQueueNothing : Prop :=
  ∀ (i : Instr) (s : State) (h : Hdr) (e : Eng) (code sub v : Nat), i.hdr = some h → engineFor i s.core = some e →
    mayDispatch s.core h e = true → formTrap i s.core = some (code, sub, v) → s.core.csr.priv = false →
    ∃ t, exec i s = .next t ∧ trapTaken s code sub v t = true

/-- Where no engine is stuck, a scalar cell with an unsatisfied token wait is held with the waits it captured (R80, R177),
and an engine cell whose queue is full is held for room, or raises ENGINE with SUB 6 where its engine is frozen (R37,
R195). A front end that is dead-held raises QDEAD in user mode (R183, R185). -/
def Obligations.HeldFrontEnd : Prop :=
  (∀ (i : Instr) (s : State) (h : Hdr), i.hdr = some h → plainCell i s.core = true → s.core.guard h = true →
    waitsDone s.core i h = false → flowing s.core = true →
    exec i s = .next { s with core := { s.core with
      held := some { instr := i, why := .tokens, waits := scalarWaits s.core i h } } }) ∧
  (∀ (i : Instr) (s : State) (h : Hdr) (e : Eng), i.hdr = some h → engineFor i s.core = some e →
    reachesQueue s.core h e = true → depthOf e ≤ (s.core.eng e).queue.length → flowing s.core = true →
    ((s.core.eng e).frozen = false → exec i s = .next { s with core := { s.core with
      held := some { instr := i, why := .room, waits := [] } } }) ∧
    ((s.core.eng e).frozen = true → s.core.csr.priv = false →
      ∃ t, exec i s = .next t ∧ trapTaken s 0x0A 6 0 t = true)) ∧
  (∀ (i : Instr) (s : State) (h : Hdr) (sub v : Nat), i.hdr = some h → s.core.csr.priv = false →
    preciseTrap i s h = some (8, sub, v) → ∃ t, exec i s = .next t ∧ trapTaken s 8 sub v t = true)

/-- The frame of the register cells (classes 0x0 to 0x2 with a register result, FP32, CSRR): of the registers only the
destination group changes, of FPCTL only the sticky bits and only under an FP32 cell; every byte of memory, and everything
but what retirement counts, stays. -/
def Obligations.RegisterFrame : Prop :=
  ∀ (i : Instr) (s t : State) (h : Hdr) (d n : Nat), i.hdr = some h → writtenRegs i s = some (d, n) →
    ready s.core i h = true → exec i s = .next t →
    (∀ j, j < d ∨ d + n ≤ j → t.core.reg j = s.core.reg j) ∧
    (∀ a, memRead t.core.mem a = memRead s.core.mem a) ∧
    t.core.csr.fpctl &&& 0xFFE0FFFF = s.core.csr.fpctl &&& 0xFFE0FFFF ∧
    (fpResult i s.core = none → t.core.csr.fpctl = s.core.csr.fpctl) ∧
    t = { s with core := retiredAs t.core { s.core with
      regs := t.core.regs, csr := { s.core.csr with fpctl := t.core.csr.fpctl } } }

/-- The frame of the stores that meet no check: the bytes stored are those of the value at the address the cell computes,
least significant first; every other byte, every other granule's full/empty bit, the poison of every word the store does
not cover, all registers and the rest of the device stay. -/
def Obligations.StoreFrame : Prop :=
  ∀ (i : Instr) (s t : State) (f : StoreForm), storeForm i s.core = some f → ready s.core i f.hdr = true →
    storeAllowed s.core f = true → memWf s.core.mem = true → setWfFrom 0 s.core.full = true →
    setWfFrom 0 s.core.poison = true → exec i s = .next t →
    (∀ a, memRead t.core.mem a = if f.addr ≤ a ∧ a < f.addr + f.size then
      BitVec.ofNat 8 (f.value / 256 ^ (a - f.addr)) else memRead s.core.mem a) ∧
    (∀ g, setHas t.core.full g = (setHas s.core.full g ||
      decide (g < 0x8000 ∧ f.addr / 16 ≤ g ∧ g ≤ (f.addr + f.size - 1) / 16))) ∧
    (∀ w, setHas t.core.poison w = (setHas s.core.poison w && !decide (f.addr ≤ 8 * w ∧ 8 * w + 8 ≤ f.addr + f.size))) ∧
    t = { s with core := retiredAs t.core { s.core with
      mem := t.core.mem, full := t.core.full, poison := t.core.poison } }

/-- The frame of the loads that meet no check: no byte of memory changes; of the registers and handles only the
destination; of the full/empty bits only those of the granules that a C load touches, which are then empty (R31); PWOOB
may be set. -/
def Obligations.LoadFrame : Prop :=
  ∀ (i : Instr) (s t : State) (f : LoadForm), loadForm i s.core = some f → ready s.core i f.hdr = true →
    loadAllowed s.core f = true → setWfFrom 0 s.core.full = true → exec i s = .next t →
    let put := f.put s.core (bytesAt s.core.mem f.addr (boundedRead s.core f.addr f.size))
    (∀ a, memRead t.core.mem a = memRead s.core.mem a) ∧
    (f.qual ≠ 2 → t.core.full = s.core.full) ∧
    (∀ g, setHas t.core.full g = (setHas s.core.full g &&
      !decide (f.qual = 2 ∧ g < 0x8000 ∧ f.addr / 16 ≤ g ∧ g ≤ (f.addr + f.size - 1) / 16))) ∧
    (∀ j, t.core.reg j = put.reg j) ∧ t.core.handles = put.handles ∧
    t = { s with core := retiredAs t.core { s.core with
      regs := t.core.regs, handles := t.core.handles, full := t.core.full
      csr := { s.core.csr with pwoob := t.core.csr.pwoob } } }

/-- The frame of a dispatch: the queue of its engine grows by one entry behind those it holds (R37), and ISS by one; of the
XNEXT registers only that of the channel of a transfer changes, and by one (R275); the iteration mark, and what retirement
counts; every register and every byte of memory stay. -/
def Obligations.DispatchFrame : Prop :=
  ∀ (i : Instr) (s t : State) (h : Hdr) (e : Eng), i.hdr = some h → engineFor i s.core = some e →
    mayDispatch s.core h e = true → formTrap i s.core = none → exec i s = .next t →
    (∀ a, memRead t.core.mem a = memRead s.core.mem a) ∧ (∀ j, t.core.reg j = s.core.reg j) ∧
    t = { s with core := retiredAs t.core (({ s.core with
      iterMark := t.core.iterMark
      csr := { s.core.csr with xnext := t.core.csr.xnext } } : Core).setEng e
        { s.core.eng e with queue := (t.core.eng e).queue, iss := (s.core.eng e).iss + 1 }) } ∧
    (t.core.eng e).queue.dropLast = (s.core.eng e).queue ∧
    t.core.csr.xnext = (match xferForm i s.core with
      | some f => s.core.csr.xnext.setIfInBounds f.chan (vec4 s.core.csr.xnext f.chan + 1)
      | none => s.core.csr.xnext)

/-- Whole-machine rule: an instruction word in user mode changes only its own core; where it ends in user mode, none of
the state that only the supervisor writes has changed; where it ends in supervisor mode, it has trapped: the PC is that
of EVEC, and ESTATUS, which ERET returns to, says user mode (R43, R45, R194). -/
def Obligations.UserModeKeepsSupervisorState : Prop :=
  ∀ (i : Instr) (s t : State), i.hdr.isSome = true → s.core.csr.priv = false → exec i s = .next t →
    t = { s with core := t.core } ∧
    (t.core.csr.priv = false → supervisorPart t.core = supervisorPart s.core) ∧
    (t.core.csr.priv = true → t.core.pc = BitVec.ofNat 16 (s.core.csr.evec.toNat % 2 ^ 16 / 4 * 4) ∧
      t.core.csr.estatus.toNat % 2 = 0)

/-- Whole-machine rule: whatever an instruction word does, in any mode, a PC on a word boundary stays on one. -/
def Obligations.PcStaysAligned : Prop :=
  ∀ (i : Instr) (s t : State), i.hdr.isSome = true → s.core.pc.toNat % 4 = 0 → exec i s = .next t →
    t.core.pc.toNat % 4 = 0

/-- The words that the decoder refuses, with their SUB and ETVAL: prefixes out of order (R62, SUB 2); behind prefixes in
order, excluded words and unallocated cells (SUB 0), a LIMM that the cell does not take (SUB 4), fields that must be zero
(SUB 1), misaligned register groups (SUB 3) and codes that the cell does not permit (SUB 5), by the order of R67 (R66, R68,
R70 to R72, R76, R77; that W always names a group of its width, of registers and of CSRs, so that SUB 3 comes before SUB 5, is the model's reading,
log 24; XPF without its LIMM is left out, log 81). And where the word at the PC of the current core stands alone and decodes to no instruction, a step in which
that front end goes raises ILLEGAL in user mode, with that SUB and ETVAL. -/
def Obligations.IllegalWordTraps : Prop :=
  (∀ (tok limm : Option Nat) (w : Nat) (r : Reject), (∀ t ∈ tok, t / 2 ^ 28 = 6) → (∀ l ∈ limm, l / 2 ^ 28 = 7) →
    w < 2 ^ 32 → w / 2 ^ 28 ≠ 6 → w / 2 ^ 28 ≠ 7 → refusal tok limm w = some r →
    decodeList (tok.toList ++ limm.toList ++ [w]) = .error r) ∧
  (∀ x y z : Nat, (x / 2 ^ 28 = 6 → y / 2 ^ 28 = 6 → decodeList [x, y, z] = .error ⟨2, y⟩) ∧
    (x / 2 ^ 28 = 7 → y / 2 ^ 28 = 6 ∨ y / 2 ^ 28 = 7 → decodeList [x, y, z] = .error ⟨2, y⟩) ∧
    (x / 2 ^ 28 = 6 → y / 2 ^ 28 = 7 → z / 2 ^ 28 = 6 ∨ z / 2 ^ 28 = 7 → decodeList [x, y, z] = .error ⟨2, z⟩)) ∧
  (∀ (w : Nat) (r : Reject) (s : State) (ts : List Turn), wordsAt s.core [w] = true → wordsNeeded [w] = 1 →
    decodeList [w] = .error r → noOverlayDue s.core = true → atBoundary s = none → s.turns = .front s.core.phys :: ts →
    s.core.phys < 1600 → s.core.issues = true → s.stilled = false → s.core.csr.priv = false →
    ∃ t, step s = .next t ∧
      trapTaken { s with turns := ts, core := s.core.startStep } 1 (r.sub % 8) (r.etval % 2 ^ 32) t = true)
end

