-- ==== Sys2Proof/Laws/Memory.lean ====
section
/-! SUPPORT. The laws of memories and sets in their canonical form: what a read after a write gives, and that every
operation keeps the form. -/

set_option Elab.async false

namespace Sys2Proof.Machine

/-! ## Canonical form -/

theorem memWfFrom_mono {lo k : Nat} {m : Mem} (h : memWfFrom k m = true) (hk : lo ≤ k) : memWfFrom lo m = true := by
  cases m with
  | nil => rfl
  | cons p t =>
    obtain ⟨a, b⟩ := p
    simp only [memWfFrom, Bool.and_eq_true, decide_eq_true_eq] at h ⊢
    exact ⟨⟨le_trans hk h.1.1, h.1.2⟩, h.2⟩

theorem memRead_of_lt {lo a : Nat} {m : Mem} (h : memWfFrom lo m = true) (ha : a < lo) : memRead m a = 0 := by
  cases m with
  | nil => rfl
  | cons p t =>
    obtain ⟨k, b⟩ := p
    simp only [memWfFrom, Bool.and_eq_true, decide_eq_true_eq] at h
    simp only [memRead, if_pos (lt_of_lt_of_le ha h.1.1)]

theorem memWfFrom_memWrite {lo a : Nat} {m : Mem} (b : Byte) (h : memWfFrom lo m = true) (ha : lo ≤ a) :
    memWfFrom lo (memWrite m a b) = true := by
  induction m generalizing lo with
  | nil =>
    by_cases hb : b = 0
    · simp only [memWrite, if_pos hb, memWfFrom]
    · simp only [memWrite, if_neg hb, memWfFrom, Bool.and_eq_true, decide_eq_true_eq, bne_iff_ne, ne_eq]
      exact ⟨⟨ha, hb⟩, trivial⟩
  | cons p t ih =>
    obtain ⟨k, x⟩ := p
    simp only [memWfFrom, Bool.and_eq_true, decide_eq_true_eq, bne_iff_ne, ne_eq] at h
    obtain ⟨⟨h1, h2⟩, h3⟩ := h
    rcases lt_trichotomy a k with hl | he | hg
    · by_cases hb : b = 0
      · simp only [memWrite, if_pos hl, if_pos hb, memWfFrom, Bool.and_eq_true, decide_eq_true_eq, bne_iff_ne, ne_eq]
        exact ⟨⟨h1, h2⟩, h3⟩
      · simp only [memWrite, if_pos hl, if_neg hb, memWfFrom, Bool.and_eq_true, decide_eq_true_eq, bne_iff_ne, ne_eq]
        exact ⟨⟨ha, hb⟩, ⟨by omega, h2⟩, h3⟩
    · subst he
      by_cases hb : b = 0
      · simp only [memWrite, lt_irrefl, if_false, if_true, hb]
        exact memWfFrom_mono h3 (by omega)
      · simp only [memWrite, lt_irrefl, if_false, if_true, if_neg hb, memWfFrom, Bool.and_eq_true, decide_eq_true_eq,
          bne_iff_ne, ne_eq]
        exact ⟨⟨ha, hb⟩, h3⟩
    · have hn : ¬ a < k := by omega
      have hn' : ¬ a = k := by omega
      simp only [memWrite, hn, hn', if_false, memWfFrom, Bool.and_eq_true, decide_eq_true_eq, bne_iff_ne, ne_eq]
      exact ⟨⟨h1, h2⟩, ih h3 (by omega)⟩

theorem memWf_nil : memWf [] = true := rfl

/-- Storing a byte keeps the form. -/
theorem memWf_memWrite {m : Mem} (a : Nat) (b : Byte) (h : memWf m = true) : memWf (memWrite m a b) = true :=
  memWfFrom_memWrite b h (Nat.zero_le a)

/-- A read after a write: the byte written at its address, every other byte as before. -/
theorem memRead_memWriteFrom {lo a : Nat} {m : Mem} (b : Byte) (h : memWfFrom lo m = true) (x : Nat) :
    memRead (memWrite m a b) x = if x = a then b else memRead m x := by
  induction m generalizing lo with
  | nil =>
    by_cases hb : b = 0
    · simp [memWrite, hb, memRead]
    · simp only [memWrite, hb, if_false, memRead]
      rcases lt_trichotomy x a with hl | he | hg
      · simp [hl, Nat.ne_of_lt hl]
      · simp [he]
      · simp [Nat.not_lt_of_gt hg, Nat.ne_of_gt hg]
  | cons p t ih =>
    obtain ⟨k, y⟩ := p
    simp only [memWfFrom, Bool.and_eq_true, decide_eq_true_eq] at h
    obtain ⟨⟨h1, h2⟩, h3⟩ := h
    have hz : ∀ z, z ≤ k → memRead t z = 0 := fun z hz => memRead_of_lt h3 (by omega)
    rcases lt_trichotomy a k with hl | he | hg
    · by_cases hb : b = 0
      · simp only [memWrite, hl, if_true, hb]
        by_cases hx : x = a
        · subst hx; simp [memRead, hl]
        · simp [hx]
      · simp only [memWrite, hl, if_true, hb, if_false]
        rcases lt_trichotomy x a with hxl | hxe | hxg
        · simp [memRead, hxl, Nat.ne_of_lt hxl, lt_trans hxl hl]
        · simp [memRead, hxe]
        · simp [memRead, Nat.not_lt_of_gt hxg, Nat.ne_of_gt hxg]
    · subst he
      by_cases hb : b = 0
      · simp only [memWrite, lt_irrefl, if_false, if_true, hb]
        rcases lt_trichotomy x a with hxl | hxe | hxg
        · simp [memRead, hxl, Nat.ne_of_lt hxl, hz x (le_of_lt hxl)]
        · simp [hxe, hz a le_rfl]
        · simp [memRead, Nat.not_lt_of_gt hxg, Nat.ne_of_gt hxg]
      · simp only [memWrite, lt_irrefl, if_false, if_true, hb]
        rcases lt_trichotomy x a with hxl | hxe | hxg
        · simp [memRead, hxl, Nat.ne_of_lt hxl]
        · simp [memRead, hxe]
        · simp [memRead, Nat.not_lt_of_gt hxg, Nat.ne_of_gt hxg]
    · have hn : ¬ a < k := by omega
      have hn' : ¬ a = k := by omega
      simp only [memWrite, hn, hn', if_false, memRead]
      by_cases hx1 : x < k
      · have : x ≠ a := by omega
        simp [hx1, this]
      · by_cases hx2 : x = k
        · have : k ≠ a := by omega
          simp [hx2, this]
        · simp [hx1, hx2, ih h3]

theorem memRead_memWrite {m : Mem} (h : memWf m = true) (a : Nat) (b : Byte) (x : Nat) :
    memRead (memWrite m a b) x = if x = a then b else memRead m x :=
  memRead_memWriteFrom b h x

theorem memWf_writeLE {m : Mem} (a n v : Nat) (h : memWf m = true) : memWf (writeLE m a n v) = true := by
  induction n generalizing m a v with
  | zero => exact h
  | succ n ih => exact ih _ _ (memWf_memWrite _ _ h)

theorem memWf_writeBytes {m : Mem} (a : Nat) (bs : List Byte) (h : memWf m = true) :
    memWf (writeBytes m a bs) = true := by
  induction bs generalizing m a with
  | nil => exact h
  | cons b bs ih => exact ih _ (memWf_memWrite _ _ h)

/-- What a little-endian store leaves at every address. -/
theorem memRead_writeLE {m : Mem} (h : memWf m = true) (a n v x : Nat) :
    memRead (writeLE m a n v) x =
      if a ≤ x ∧ x < a + n then BitVec.ofNat 8 (v / 256 ^ (x - a)) else memRead m x := by
  induction n generalizing m a v with
  | zero => simp [writeLE]
  | succ n ih =>
    simp only [writeLE]
    rw [ih (memWf_memWrite _ _ h), memRead_memWrite h]
    by_cases h1 : a + 1 ≤ x ∧ x < a + 1 + n
    · have h2 : a ≤ x ∧ x < a + (n + 1) := by omega
      rw [if_pos h1, if_pos h2, Nat.div_div_eq_div_mul]
      congr 2
      rw [← pow_succ']
      congr 1
      omega
    · rw [if_neg h1]
      by_cases hx : x = a
      · subst hx
        have h2 : x ≤ x ∧ x < x + (n + 1) := by omega
        simp
      · have h2 : ¬ (a ≤ x ∧ x < a + (n + 1)) := by omega
        rw [if_neg hx, if_neg h2]

/-- What a store of a list of bytes leaves at every address. -/
theorem memRead_writeBytes {m : Mem} (h : memWf m = true) (a : Nat) (bs : List Byte) (x : Nat) :
    memRead (writeBytes m a bs) x = if a ≤ x ∧ x < a + bs.length then bs.getD (x - a) 0 else memRead m x := by
  induction bs generalizing m a with
  | nil => simp [writeBytes]
  | cons b bs ih =>
    simp only [writeBytes]
    rw [ih (memWf_memWrite _ _ h), memRead_memWrite h]
    by_cases h1 : a + 1 ≤ x ∧ x < a + 1 + bs.length
    · have h2 : a ≤ x ∧ x < a + (b :: bs).length := by simp only [List.length_cons]; omega
      rw [if_pos h1, if_pos h2]
      obtain ⟨k, hk⟩ : ∃ k, x - a = k + 1 := ⟨x - a - 1, by omega⟩
      have : x - (a + 1) = k := by omega
      rw [hk, this, List.getD_cons_succ]
    · rw [if_neg h1]
      by_cases hx : x = a
      · subst hx; simp
      · have h2 : ¬ (a ≤ x ∧ x < a + (b :: bs).length) := by simp only [List.length_cons]; omega
        rw [if_neg hx, if_neg h2]

/-- Dropping entries keeps the form. -/
theorem memWfFrom_filter {lo : Nat} {m : Mem} (p : Host.Cell → Bool) (h : memWfFrom lo m = true) :
    memWfFrom lo (m.filter p) = true := by
  induction m generalizing lo with
  | nil => rfl
  | cons c t ih =>
    obtain ⟨k, x⟩ := c
    simp only [memWfFrom, Bool.and_eq_true, decide_eq_true_eq] at h
    by_cases hp : p (k, x) = true
    · simp only [List.filter_cons_of_pos hp, memWfFrom, Bool.and_eq_true, decide_eq_true_eq]
      exact ⟨h.1, ih h.2⟩
    · rw [List.filter_cons_of_neg hp]
      exact memWfFrom_mono (ih h.2) (by omega)

theorem memWf_memZero {m : Mem} (lo hi : Nat) (h : memWf m = true) : memWf (memZero m lo hi) = true :=
  memWfFrom_filter _ h

/-- A memory below a bound followed by one from the bound on has the form. -/
theorem memWfFrom_append {lo mid : Nat} {m₁ m₂ : Mem} (h₁ : memWfFrom lo m₁ = true) (h₂ : memWfFrom mid m₂ = true)
    (hlo : lo ≤ mid) (hlt : ∀ c ∈ m₁, c.1 < mid) : memWfFrom lo (m₁ ++ m₂) = true := by
  induction m₁ generalizing lo with
  | nil => exact memWfFrom_mono h₂ hlo
  | cons c t ih =>
    obtain ⟨k, x⟩ := c
    simp only [memWfFrom, Bool.and_eq_true, decide_eq_true_eq, List.cons_append] at h₁ ⊢
    have hk : k < mid := hlt (k, x) (by simp)
    exact ⟨h₁.1, ih h₁.2 (by omega) (fun c hc => hlt c (by simp [hc]))⟩

theorem memWfFrom_range (f : Nat → Byte) (lo n : Nat) :
    memWfFrom lo (((List.range' lo n).map (fun a => (a, f a))).filter (fun c => c.2 != 0)) = true := by
  induction n generalizing lo with
  | zero => rfl
  | succ n ih =>
    simp only [List.range'_succ, List.map_cons]
    by_cases hb : (f lo != 0) = true
    · rw [List.filter_cons_of_pos (p := fun c : Host.Cell => c.2 != 0) hb]
      simp only [memWfFrom, Bool.and_eq_true, decide_eq_true_eq]
      exact ⟨⟨le_rfl, hb⟩, ih (lo + 1)⟩
    · rw [List.filter_cons_of_neg (p := fun c : Host.Cell => c.2 != 0) hb]
      exact memWfFrom_mono (ih (lo + 1)) (by omega)

theorem memWfFrom_dropBelow {lo hi : Nat} {m : Mem} (h : memWfFrom lo m = true) :
    memWfFrom hi (m.filter (fun c => decide (hi ≤ c.1))) = true := by
  induction m generalizing lo with
  | nil => rfl
  | cons c t ih =>
    obtain ⟨k, x⟩ := c
    simp only [memWfFrom, Bool.and_eq_true, decide_eq_true_eq] at h
    by_cases hk : hi ≤ k
    · rw [List.filter_cons_of_pos (by simpa using hk)]
      simp only [memWfFrom, Bool.and_eq_true, decide_eq_true_eq]
      refine ⟨⟨hk, h.1.2⟩, ?_⟩
      exact memWfFrom_filter _ h.2
    · rw [List.filter_cons_of_neg (by simpa using hk)]
      exact ih h.2

theorem memWf_memFill {m : Mem} (lo hi : Nat) (f : Nat → Byte) (h : memWf m = true) :
    memWf (memFill m lo hi f) = true := by
  unfold memFill memWf
  refine memWfFrom_append (mid := max lo hi) ?_ ?_ (Nat.zero_le _) ?_
  · refine memWfFrom_append (mid := lo) (memWfFrom_filter _ h) (memWfFrom_range f lo _) (Nat.zero_le _) ?_
    intro c hc
    simpa using (List.mem_filter.mp hc).2
  · have := memWfFrom_dropBelow (hi := max lo hi) h
    convert this using 3
    funext c
    simp only [max_le_iff, decide_eq_decide]
    tauto
  · intro c hc
    rcases List.mem_append.mp hc with hc | hc
    · have := (List.mem_filter.mp hc).2
      simp only [decide_eq_true_eq] at this
      exact lt_of_lt_of_le this (le_max_left _ _)
    · obtain ⟨a, ha, rfl⟩ := List.mem_map.mp (List.mem_filter.mp hc).1
      simp only [List.mem_range'_1] at ha
      have : a < hi := by omega
      exact lt_of_lt_of_le this (le_max_right _ _)

/-! ## Sets -/

theorem setWfFrom_mono {lo k : Nat} {s : NatSet} (h : setWfFrom k s = true) (hk : lo ≤ k) : setWfFrom lo s = true := by
  cases s with
  | nil => rfl
  | cons a t =>
    simp only [setWfFrom, Bool.and_eq_true, decide_eq_true_eq] at h ⊢
    exact ⟨le_trans hk h.1, h.2⟩

theorem setHas_of_lt {lo a : Nat} {s : NatSet} (h : setWfFrom lo s = true) (ha : a < lo) : setHas s a = false := by
  cases s with
  | nil => rfl
  | cons k t =>
    simp only [setWfFrom, Bool.and_eq_true, decide_eq_true_eq] at h
    simp only [setHas, if_pos (lt_of_lt_of_le ha h.1)]

/-- Membership after adding a number: no form is needed. -/
theorem setHas_setAdd (s : NatSet) (a x : Nat) : setHas (setAdd s a) x = (decide (x = a) || setHas s x) := by
  induction s with
  | nil =>
    simp only [setAdd, setHas]
    rcases lt_trichotomy x a with h | h | h
    · simp [h, Nat.ne_of_lt h]
    · simp [h]
    · simp [Nat.not_lt_of_gt h, Nat.ne_of_gt h]
  | cons k t ih =>
    rcases lt_trichotomy a k with h | h | h
    · simp only [setAdd, if_pos h]
      rcases lt_trichotomy x a with hx | hx | hx
      · simp [setHas, hx, Nat.ne_of_lt hx, lt_trans hx h]
      · simp [setHas, hx]
      · simp [setHas, Nat.not_lt_of_gt hx, Nat.ne_of_gt hx]
    · subst h
      simp only [setAdd, lt_irrefl, if_false, if_true]
      by_cases hx : x = a
      · simp [setHas, hx]
      · simp [hx]
    · simp only [setAdd, if_neg (Nat.not_lt_of_gt h), if_neg (Nat.ne_of_gt h), setHas]
      by_cases h1 : x < k
      · have : x ≠ a := by omega
        simp [h1, this]
      · by_cases h2 : x = k
        · simp [h2]
        · simp [h1, h2, ih]

theorem setWfFrom_setAdd {lo a : Nat} {s : NatSet} (h : setWfFrom lo s = true) (ha : lo ≤ a) :
    setWfFrom lo (setAdd s a) = true := by
  induction s generalizing lo with
  | nil => simp [setAdd, setWfFrom, ha]
  | cons k t ih =>
    simp only [setWfFrom, Bool.and_eq_true, decide_eq_true_eq] at h
    rcases lt_trichotomy a k with hl | he | hg
    · simp only [setAdd, if_pos hl, setWfFrom, Bool.and_eq_true, decide_eq_true_eq]
      exact ⟨ha, by omega, h.2⟩
    · subst he
      simp only [setAdd, lt_irrefl, if_false, if_true, setWfFrom, Bool.and_eq_true, decide_eq_true_eq]
      exact h
    · simp only [setAdd, if_neg (Nat.not_lt_of_gt hg), if_neg (Nat.ne_of_gt hg), setWfFrom, Bool.and_eq_true,
        decide_eq_true_eq]
      exact ⟨h.1, ih h.2 (by omega)⟩

/-- Membership after removing a number. -/
theorem setHas_setDel {lo : Nat} {s : NatSet} (h : setWfFrom lo s = true) (a x : Nat) :
    setHas (setDel s a) x = (decide (x ≠ a) && setHas s x) := by
  induction s generalizing lo with
  | nil => simp [setDel, setHas]
  | cons k t ih =>
    simp only [setWfFrom, Bool.and_eq_true, decide_eq_true_eq] at h
    rcases lt_trichotomy a k with hl | he | hg
    · simp only [setDel, if_pos hl, setHas]
      by_cases hx : x = a
      · subst hx; simp [hl]
      · simp [hx]
    · subst he
      simp only [setDel, lt_irrefl, if_false, if_true, setHas]
      rcases lt_trichotomy x a with hx | hx | hx
      · simp [hx, setHas_of_lt h.2 (by omega : x < a + 1)]
      · subst hx; simp [setHas_of_lt h.2 (by omega : x < x + 1)]
      · simp [Nat.not_lt_of_gt hx, Nat.ne_of_gt hx]
    · simp only [setDel, if_neg (Nat.not_lt_of_gt hg), if_neg (Nat.ne_of_gt hg), setHas]
      by_cases h1 : x < k
      · simp [h1]
      · by_cases h2 : x = k
        · have : k ≠ a := by omega
          simp [h2, this]
        · simp [h1, h2, ih h.2]

theorem setWfFrom_filter {lo : Nat} {s : NatSet} (p : Nat → Bool) (h : setWfFrom lo s = true) :
    setWfFrom lo (s.filter p) = true := by
  induction s generalizing lo with
  | nil => rfl
  | cons k t ih =>
    simp only [setWfFrom, Bool.and_eq_true, decide_eq_true_eq] at h
    by_cases hp : p k = true
    · simp only [List.filter_cons_of_pos hp, setWfFrom, Bool.and_eq_true, decide_eq_true_eq]
      exact ⟨h.1, ih h.2⟩
    · rw [List.filter_cons_of_neg hp]
      exact setWfFrom_mono (ih h.2) (by omega)

/-- Membership after dropping numbers. -/
theorem setHas_filter {lo : Nat} {s : NatSet} (p : Nat → Bool) (h : setWfFrom lo s = true) (x : Nat) :
    setHas (s.filter p) x = (p x && setHas s x) := by
  induction s generalizing lo with
  | nil => simp [setHas]
  | cons k t ih =>
    simp only [setWfFrom, Bool.and_eq_true, decide_eq_true_eq] at h
    by_cases hp : p k = true
    · rw [List.filter_cons_of_pos hp]
      simp only [setHas]
      by_cases h1 : x < k
      · simp [h1]
      · by_cases h2 : x = k
        · subst h2; simp [hp]
        · simp [h1, h2, ih h.2]
    · rw [List.filter_cons_of_neg hp]
      simp only [setHas]
      by_cases h1 : x < k
      · simp [h1, setHas_of_lt (setWfFrom_filter p h.2) (by omega : x < k + 1)]
      · by_cases h2 : x = k
        · subst h2
          simp [hp, setHas_of_lt (setWfFrom_filter p h.2) (by omega : x < x + 1)]
        · simp [h1, h2, ih h.2]

/-! ## Local stores -/

/-- A local store keeps the form of the local memory. -/
theorem Core.storeLocal_memWf (c : Core) (a n v : Nat) (h : memWf c.mem = true) :
    memWf (c.storeLocal a n v).mem = true := memWf_writeLE a n v h

/-- Every byte after a local store. -/
theorem Core.storeLocal_read (c : Core) (a n v x : Nat) (h : memWf c.mem = true) :
    memRead (c.storeLocal a n v).mem x =
      if a ≤ x ∧ x < a + n then BitVec.ofNat 8 (v / 256 ^ (x - a)) else memRead c.mem x :=
  memRead_writeLE h a n v x

/-- A store to device memory keeps the form. -/
theorem State.gddrStore_memWf (s : State) (a : Nat) (bs : List Byte) (h : memWf s.map.gddr = true) :
    memWf (s.gddrStore a bs).map.gddr = true := memWf_writeBytes a bs h

/-- A store to host memory keeps the form. -/
theorem State.hostStore_memWf (s : State) (a : Nat) (bs : List Byte) (h : memWf s.map.host = true) :
    memWf (s.hostStore a bs).map.host = true := memWf_writeBytes a bs h

/-- A store to staging keeps the form. -/
theorem State.stgPut_memWf (s : State) (g : Nat) (bs : List Byte) (bad : List Nat) (h : memWf s.map.staging = true) :
    memWf (s.stgPut g bs bad).map.staging = true := memWf_writeBytes _ bs h

end Sys2Proof.Machine
end

