-- ==== Sys2Proof/Laws/State.lean ====
section
/-! SUPPORT. What the named updates of a core and of the device leave alone, field by field, and what they write. -/

set_option Elab.async false

namespace Sys2Proof.Machine

/-! ## Scalar registers (R14) -/

@[simp] theorem Core.reg_zero (c : Core) : c.reg 0 = 0 := rfl
@[simp] theorem Core.setReg_zero (c : Core) (v : Word) : c.setReg 0 v = c := rfl
@[simp] theorem Core.pred_zero (c : Core) : c.pred 0 = true := rfl
@[simp] theorem Core.setPred_zero (c : Core) (b : Bool) : c.setPred 0 b = c := rfl

/-! ## setReg -/

@[simp] theorem Core.setReg_phys (c : Core) (n : Nat) (v : Word) : (c.setReg n v).phys = c.phys := by
  unfold Core.setReg; split <;> rfl
@[simp] theorem Core.setReg_pc (c : Core) (n : Nat) (v : Word) : (c.setReg n v).pc = c.pc := by
  unfold Core.setReg; split <;> rfl
@[simp] theorem Core.setReg_preds (c : Core) (n : Nat) (v : Word) : (c.setReg n v).preds = c.preds := by
  unfold Core.setReg; split <;> rfl
@[simp] theorem Core.setReg_handles (c : Core) (n : Nat) (v : Word) : (c.setReg n v).handles = c.handles := by
  unfold Core.setReg; split <;> rfl
@[simp] theorem Core.setReg_queues (c : Core) (n : Nat) (v : Word) : (c.setReg n v).queues = c.queues := by
  unfold Core.setReg; split <;> rfl
@[simp] theorem Core.setReg_csr (c : Core) (n : Nat) (v : Word) : (c.setReg n v).csr = c.csr := by
  unfold Core.setReg; split <;> rfl
@[simp] theorem Core.setReg_mem (c : Core) (n : Nat) (v : Word) : (c.setReg n v).mem = c.mem := by
  unfold Core.setReg; split <;> rfl
@[simp] theorem Core.setReg_poison (c : Core) (n : Nat) (v : Word) : (c.setReg n v).poison = c.poison := by
  unfold Core.setReg; split <;> rfl
@[simp] theorem Core.setReg_full (c : Core) (n : Nat) (v : Word) : (c.setReg n v).full = c.full := by
  unfold Core.setReg; split <;> rfl
@[simp] theorem Core.setReg_readFull (c : Core) (n : Nat) (v : Word) : (c.setReg n v).readFull = c.readFull := by
  unfold Core.setReg; split <;> rfl
@[simp] theorem Core.setReg_imem (c : Core) (n : Nat) (v : Word) : (c.setReg n v).imem = c.imem := by
  unfold Core.setReg; split <;> rfl
@[simp] theorem Core.setReg_imemPoison (c : Core) (n : Nat) (v : Word) : (c.setReg n v).imemPoison = c.imemPoison := by
  unfold Core.setReg; split <;> rfl
@[simp] theorem Core.setReg_pageValid (c : Core) (n : Nat) (v : Word) : (c.setReg n v).pageValid = c.pageValid := by
  unfold Core.setReg; split <;> rfl
@[simp] theorem Core.setReg_pageExec (c : Core) (n : Nat) (v : Word) : (c.setReg n v).pageExec = c.pageExec := by
  unfold Core.setReg; split <;> rfl
@[simp] theorem Core.setReg_pst (c : Core) (n : Nat) (v : Word) : (c.setReg n v).pst = c.pst := by
  unfold Core.setReg; split <;> rfl
@[simp] theorem Core.setReg_halted (c : Core) (n : Nat) (v : Word) : (c.setReg n v).halted = c.halted := by
  unfold Core.setReg; split <;> rfl
@[simp] theorem Core.setReg_iterMark (c : Core) (n : Nat) (v : Word) : (c.setReg n v).iterMark = c.iterMark := by
  unfold Core.setReg; split <;> rfl
@[simp] theorem Core.setReg_held (c : Core) (n : Nat) (v : Word) : (c.setReg n v).held = c.held := by
  unfold Core.setReg; split <;> rfl
@[simp] theorem Core.setReg_engV (c : Core) (n : Nat) (v : Word) : (c.setReg n v).engV = c.engV := by
  unfold Core.setReg; split <;> rfl
@[simp] theorem Core.setReg_engM (c : Core) (n : Nat) (v : Word) : (c.setReg n v).engM = c.engM := by
  unfold Core.setReg; split <;> rfl
@[simp] theorem Core.setReg_engL (c : Core) (n : Nat) (v : Word) : (c.setReg n v).engL = c.engL := by
  unfold Core.setReg; split <;> rfl
@[simp] theorem Core.setReg_engE (c : Core) (n : Nat) (v : Word) : (c.setReg n v).engE = c.engE := by
  unfold Core.setReg; split <;> rfl
@[simp] theorem Core.setReg_matrix (c : Core) (n : Nat) (v : Word) : (c.setReg n v).matrix = c.matrix := by
  unfold Core.setReg; split <;> rfl
@[simp] theorem Core.setReg_vmet (c : Core) (n : Nat) (v : Word) : (c.setReg n v).vmet = c.vmet := by
  unfold Core.setReg; split <;> rfl
@[simp] theorem Core.setReg_vrows (c : Core) (n : Nat) (v : Word) : (c.setReg n v).vrows = c.vrows := by
  unfold Core.setReg; split <;> rfl
@[simp] theorem Core.setReg_vpushed (c : Core) (n : Nat) (v : Word) : (c.setReg n v).vpushed = c.vpushed := by
  unfold Core.setReg; split <;> rfl
@[simp] theorem Core.setReg_lmet (c : Core) (n : Nat) (v : Word) : (c.setReg n v).lmet = c.lmet := by
  unfold Core.setReg; split <;> rfl
@[simp] theorem Core.setReg_xfers (c : Core) (n : Nat) (v : Word) : (c.setReg n v).xfers = c.xfers := by
  unfold Core.setReg; split <;> rfl
@[simp] theorem Core.setReg_faultRec (c : Core) (n : Nat) (v : Word) : (c.setReg n v).faultRec = c.faultRec := by
  unfold Core.setReg; split <;> rfl
@[simp] theorem Core.setReg_heldWrites (c : Core) (n : Nat) (v : Word) : (c.setReg n v).heldWrites = c.heldWrites := by
  unfold Core.setReg; split <;> rfl
@[simp] theorem Core.setReg_overlay (c : Core) (n : Nat) (v : Word) : (c.setReg n v).overlay = c.overlay := by
  unfold Core.setReg; split <;> rfl
@[simp] theorem Core.setReg_task (c : Core) (n : Nat) (v : Word) : (c.setReg n v).task = c.task := by
  unfold Core.setReg; split <;> rfl
@[simp] theorem Core.setReg_warm (c : Core) (n : Nat) (v : Word) : (c.setReg n v).warm = c.warm := by
  unfold Core.setReg; split <;> rfl
@[simp] theorem Core.setReg_saved (c : Core) (n : Nat) (v : Word) : (c.setReg n v).saved = c.saved := by
  unfold Core.setReg; split <;> rfl
@[simp] theorem Core.setReg_sigLeft (c : Core) (n : Nat) (v : Word) : (c.setReg n v).sigLeft = c.sigLeft := by
  unfold Core.setReg; split <;> rfl
@[simp] theorem Core.setReg_pend (c : Core) (n : Nat) (v : Word) : (c.setReg n v).pend = c.pend := by
  unfold Core.setReg; split <;> rfl
@[simp] theorem Core.setReg_dbg (c : Core) (n : Nat) (v : Word) : (c.setReg n v).dbg = c.dbg := by
  unfold Core.setReg; split <;> rfl

/-! ## setPred -/

@[simp] theorem Core.setPred_phys (c : Core) (n : Nat) (b : Bool) : (c.setPred n b).phys = c.phys := by
  unfold Core.setPred; split <;> rfl
@[simp] theorem Core.setPred_pc (c : Core) (n : Nat) (b : Bool) : (c.setPred n b).pc = c.pc := by
  unfold Core.setPred; split <;> rfl
@[simp] theorem Core.setPred_regs (c : Core) (n : Nat) (b : Bool) : (c.setPred n b).regs = c.regs := by
  unfold Core.setPred; split <;> rfl
@[simp] theorem Core.setPred_handles (c : Core) (n : Nat) (b : Bool) : (c.setPred n b).handles = c.handles := by
  unfold Core.setPred; split <;> rfl
@[simp] theorem Core.setPred_queues (c : Core) (n : Nat) (b : Bool) : (c.setPred n b).queues = c.queues := by
  unfold Core.setPred; split <;> rfl
@[simp] theorem Core.setPred_csr (c : Core) (n : Nat) (b : Bool) : (c.setPred n b).csr = c.csr := by
  unfold Core.setPred; split <;> rfl
@[simp] theorem Core.setPred_mem (c : Core) (n : Nat) (b : Bool) : (c.setPred n b).mem = c.mem := by
  unfold Core.setPred; split <;> rfl
@[simp] theorem Core.setPred_poison (c : Core) (n : Nat) (b : Bool) : (c.setPred n b).poison = c.poison := by
  unfold Core.setPred; split <;> rfl
@[simp] theorem Core.setPred_full (c : Core) (n : Nat) (b : Bool) : (c.setPred n b).full = c.full := by
  unfold Core.setPred; split <;> rfl
@[simp] theorem Core.setPred_readFull (c : Core) (n : Nat) (b : Bool) : (c.setPred n b).readFull = c.readFull := by
  unfold Core.setPred; split <;> rfl
@[simp] theorem Core.setPred_imem (c : Core) (n : Nat) (b : Bool) : (c.setPred n b).imem = c.imem := by
  unfold Core.setPred; split <;> rfl
@[simp] theorem Core.setPred_imemPoison (c : Core) (n : Nat) (b : Bool) : (c.setPred n b).imemPoison = c.imemPoison := by
  unfold Core.setPred; split <;> rfl
@[simp] theorem Core.setPred_pageValid (c : Core) (n : Nat) (b : Bool) : (c.setPred n b).pageValid = c.pageValid := by
  unfold Core.setPred; split <;> rfl
@[simp] theorem Core.setPred_pageExec (c : Core) (n : Nat) (b : Bool) : (c.setPred n b).pageExec = c.pageExec := by
  unfold Core.setPred; split <;> rfl
@[simp] theorem Core.setPred_pst (c : Core) (n : Nat) (b : Bool) : (c.setPred n b).pst = c.pst := by
  unfold Core.setPred; split <;> rfl
@[simp] theorem Core.setPred_halted (c : Core) (n : Nat) (b : Bool) : (c.setPred n b).halted = c.halted := by
  unfold Core.setPred; split <;> rfl
@[simp] theorem Core.setPred_iterMark (c : Core) (n : Nat) (b : Bool) : (c.setPred n b).iterMark = c.iterMark := by
  unfold Core.setPred; split <;> rfl
@[simp] theorem Core.setPred_held (c : Core) (n : Nat) (b : Bool) : (c.setPred n b).held = c.held := by
  unfold Core.setPred; split <;> rfl
@[simp] theorem Core.setPred_engV (c : Core) (n : Nat) (b : Bool) : (c.setPred n b).engV = c.engV := by
  unfold Core.setPred; split <;> rfl
@[simp] theorem Core.setPred_engM (c : Core) (n : Nat) (b : Bool) : (c.setPred n b).engM = c.engM := by
  unfold Core.setPred; split <;> rfl
@[simp] theorem Core.setPred_engL (c : Core) (n : Nat) (b : Bool) : (c.setPred n b).engL = c.engL := by
  unfold Core.setPred; split <;> rfl
@[simp] theorem Core.setPred_engE (c : Core) (n : Nat) (b : Bool) : (c.setPred n b).engE = c.engE := by
  unfold Core.setPred; split <;> rfl
@[simp] theorem Core.setPred_matrix (c : Core) (n : Nat) (b : Bool) : (c.setPred n b).matrix = c.matrix := by
  unfold Core.setPred; split <;> rfl
@[simp] theorem Core.setPred_vmet (c : Core) (n : Nat) (b : Bool) : (c.setPred n b).vmet = c.vmet := by
  unfold Core.setPred; split <;> rfl
@[simp] theorem Core.setPred_vrows (c : Core) (n : Nat) (b : Bool) : (c.setPred n b).vrows = c.vrows := by
  unfold Core.setPred; split <;> rfl
@[simp] theorem Core.setPred_vpushed (c : Core) (n : Nat) (b : Bool) : (c.setPred n b).vpushed = c.vpushed := by
  unfold Core.setPred; split <;> rfl
@[simp] theorem Core.setPred_lmet (c : Core) (n : Nat) (b : Bool) : (c.setPred n b).lmet = c.lmet := by
  unfold Core.setPred; split <;> rfl
@[simp] theorem Core.setPred_xfers (c : Core) (n : Nat) (b : Bool) : (c.setPred n b).xfers = c.xfers := by
  unfold Core.setPred; split <;> rfl
@[simp] theorem Core.setPred_faultRec (c : Core) (n : Nat) (b : Bool) : (c.setPred n b).faultRec = c.faultRec := by
  unfold Core.setPred; split <;> rfl
@[simp] theorem Core.setPred_heldWrites (c : Core) (n : Nat) (b : Bool) : (c.setPred n b).heldWrites = c.heldWrites := by
  unfold Core.setPred; split <;> rfl
@[simp] theorem Core.setPred_overlay (c : Core) (n : Nat) (b : Bool) : (c.setPred n b).overlay = c.overlay := by
  unfold Core.setPred; split <;> rfl
@[simp] theorem Core.setPred_task (c : Core) (n : Nat) (b : Bool) : (c.setPred n b).task = c.task := by
  unfold Core.setPred; split <;> rfl
@[simp] theorem Core.setPred_warm (c : Core) (n : Nat) (b : Bool) : (c.setPred n b).warm = c.warm := by
  unfold Core.setPred; split <;> rfl
@[simp] theorem Core.setPred_saved (c : Core) (n : Nat) (b : Bool) : (c.setPred n b).saved = c.saved := by
  unfold Core.setPred; split <;> rfl
@[simp] theorem Core.setPred_sigLeft (c : Core) (n : Nat) (b : Bool) : (c.setPred n b).sigLeft = c.sigLeft := by
  unfold Core.setPred; split <;> rfl
@[simp] theorem Core.setPred_pend (c : Core) (n : Nat) (b : Bool) : (c.setPred n b).pend = c.pend := by
  unfold Core.setPred; split <;> rfl
@[simp] theorem Core.setPred_dbg (c : Core) (n : Nat) (b : Bool) : (c.setPred n b).dbg = c.dbg := by
  unfold Core.setPred; split <;> rfl

/-! ## setHandle -/

@[simp] theorem Core.setHandle_phys (c : Core) (n : Nat) (v : HandleBits) : (c.setHandle n v).phys = c.phys := rfl
@[simp] theorem Core.setHandle_pc (c : Core) (n : Nat) (v : HandleBits) : (c.setHandle n v).pc = c.pc := rfl
@[simp] theorem Core.setHandle_regs (c : Core) (n : Nat) (v : HandleBits) : (c.setHandle n v).regs = c.regs := rfl
@[simp] theorem Core.setHandle_preds (c : Core) (n : Nat) (v : HandleBits) : (c.setHandle n v).preds = c.preds := rfl
@[simp] theorem Core.setHandle_queues (c : Core) (n : Nat) (v : HandleBits) : (c.setHandle n v).queues = c.queues := rfl
@[simp] theorem Core.setHandle_csr (c : Core) (n : Nat) (v : HandleBits) : (c.setHandle n v).csr = c.csr := rfl
@[simp] theorem Core.setHandle_mem (c : Core) (n : Nat) (v : HandleBits) : (c.setHandle n v).mem = c.mem := rfl
@[simp] theorem Core.setHandle_poison (c : Core) (n : Nat) (v : HandleBits) : (c.setHandle n v).poison = c.poison := rfl
@[simp] theorem Core.setHandle_full (c : Core) (n : Nat) (v : HandleBits) : (c.setHandle n v).full = c.full := rfl
@[simp] theorem Core.setHandle_readFull (c : Core) (n : Nat) (v : HandleBits) : (c.setHandle n v).readFull = c.readFull := rfl
@[simp] theorem Core.setHandle_imem (c : Core) (n : Nat) (v : HandleBits) : (c.setHandle n v).imem = c.imem := rfl
@[simp] theorem Core.setHandle_imemPoison (c : Core) (n : Nat) (v : HandleBits) : (c.setHandle n v).imemPoison = c.imemPoison := rfl
@[simp] theorem Core.setHandle_pageValid (c : Core) (n : Nat) (v : HandleBits) : (c.setHandle n v).pageValid = c.pageValid := rfl
@[simp] theorem Core.setHandle_pageExec (c : Core) (n : Nat) (v : HandleBits) : (c.setHandle n v).pageExec = c.pageExec := rfl
@[simp] theorem Core.setHandle_pst (c : Core) (n : Nat) (v : HandleBits) : (c.setHandle n v).pst = c.pst := rfl
@[simp] theorem Core.setHandle_halted (c : Core) (n : Nat) (v : HandleBits) : (c.setHandle n v).halted = c.halted := rfl
@[simp] theorem Core.setHandle_iterMark (c : Core) (n : Nat) (v : HandleBits) : (c.setHandle n v).iterMark = c.iterMark := rfl
@[simp] theorem Core.setHandle_held (c : Core) (n : Nat) (v : HandleBits) : (c.setHandle n v).held = c.held := rfl
@[simp] theorem Core.setHandle_engV (c : Core) (n : Nat) (v : HandleBits) : (c.setHandle n v).engV = c.engV := rfl
@[simp] theorem Core.setHandle_engM (c : Core) (n : Nat) (v : HandleBits) : (c.setHandle n v).engM = c.engM := rfl
@[simp] theorem Core.setHandle_engL (c : Core) (n : Nat) (v : HandleBits) : (c.setHandle n v).engL = c.engL := rfl
@[simp] theorem Core.setHandle_engE (c : Core) (n : Nat) (v : HandleBits) : (c.setHandle n v).engE = c.engE := rfl
@[simp] theorem Core.setHandle_matrix (c : Core) (n : Nat) (v : HandleBits) : (c.setHandle n v).matrix = c.matrix := rfl
@[simp] theorem Core.setHandle_vmet (c : Core) (n : Nat) (v : HandleBits) : (c.setHandle n v).vmet = c.vmet := rfl
@[simp] theorem Core.setHandle_vrows (c : Core) (n : Nat) (v : HandleBits) : (c.setHandle n v).vrows = c.vrows := rfl
@[simp] theorem Core.setHandle_vpushed (c : Core) (n : Nat) (v : HandleBits) : (c.setHandle n v).vpushed = c.vpushed := rfl
@[simp] theorem Core.setHandle_lmet (c : Core) (n : Nat) (v : HandleBits) : (c.setHandle n v).lmet = c.lmet := rfl
@[simp] theorem Core.setHandle_xfers (c : Core) (n : Nat) (v : HandleBits) : (c.setHandle n v).xfers = c.xfers := rfl
@[simp] theorem Core.setHandle_faultRec (c : Core) (n : Nat) (v : HandleBits) : (c.setHandle n v).faultRec = c.faultRec := rfl
@[simp] theorem Core.setHandle_heldWrites (c : Core) (n : Nat) (v : HandleBits) : (c.setHandle n v).heldWrites = c.heldWrites := rfl
@[simp] theorem Core.setHandle_overlay (c : Core) (n : Nat) (v : HandleBits) : (c.setHandle n v).overlay = c.overlay := rfl
@[simp] theorem Core.setHandle_task (c : Core) (n : Nat) (v : HandleBits) : (c.setHandle n v).task = c.task := rfl
@[simp] theorem Core.setHandle_warm (c : Core) (n : Nat) (v : HandleBits) : (c.setHandle n v).warm = c.warm := rfl
@[simp] theorem Core.setHandle_saved (c : Core) (n : Nat) (v : HandleBits) : (c.setHandle n v).saved = c.saved := rfl
@[simp] theorem Core.setHandle_sigLeft (c : Core) (n : Nat) (v : HandleBits) : (c.setHandle n v).sigLeft = c.sigLeft := rfl
@[simp] theorem Core.setHandle_pend (c : Core) (n : Nat) (v : HandleBits) : (c.setHandle n v).pend = c.pend := rfl
@[simp] theorem Core.setHandle_dbg (c : Core) (n : Nat) (v : HandleBits) : (c.setHandle n v).dbg = c.dbg := rfl

/-! ## setQueue -/

@[simp] theorem Core.setQueue_phys (c : Core) (n : Nat) (q : List Word) : (c.setQueue n q).phys = c.phys := rfl
@[simp] theorem Core.setQueue_pc (c : Core) (n : Nat) (q : List Word) : (c.setQueue n q).pc = c.pc := rfl
@[simp] theorem Core.setQueue_regs (c : Core) (n : Nat) (q : List Word) : (c.setQueue n q).regs = c.regs := rfl
@[simp] theorem Core.setQueue_preds (c : Core) (n : Nat) (q : List Word) : (c.setQueue n q).preds = c.preds := rfl
@[simp] theorem Core.setQueue_handles (c : Core) (n : Nat) (q : List Word) : (c.setQueue n q).handles = c.handles := rfl
@[simp] theorem Core.setQueue_csr (c : Core) (n : Nat) (q : List Word) : (c.setQueue n q).csr = c.csr := rfl
@[simp] theorem Core.setQueue_mem (c : Core) (n : Nat) (q : List Word) : (c.setQueue n q).mem = c.mem := rfl
@[simp] theorem Core.setQueue_poison (c : Core) (n : Nat) (q : List Word) : (c.setQueue n q).poison = c.poison := rfl
@[simp] theorem Core.setQueue_full (c : Core) (n : Nat) (q : List Word) : (c.setQueue n q).full = c.full := rfl
@[simp] theorem Core.setQueue_readFull (c : Core) (n : Nat) (q : List Word) : (c.setQueue n q).readFull = c.readFull := rfl
@[simp] theorem Core.setQueue_imem (c : Core) (n : Nat) (q : List Word) : (c.setQueue n q).imem = c.imem := rfl
@[simp] theorem Core.setQueue_imemPoison (c : Core) (n : Nat) (q : List Word) : (c.setQueue n q).imemPoison = c.imemPoison := rfl
@[simp] theorem Core.setQueue_pageValid (c : Core) (n : Nat) (q : List Word) : (c.setQueue n q).pageValid = c.pageValid := rfl
@[simp] theorem Core.setQueue_pageExec (c : Core) (n : Nat) (q : List Word) : (c.setQueue n q).pageExec = c.pageExec := rfl
@[simp] theorem Core.setQueue_pst (c : Core) (n : Nat) (q : List Word) : (c.setQueue n q).pst = c.pst := rfl
@[simp] theorem Core.setQueue_halted (c : Core) (n : Nat) (q : List Word) : (c.setQueue n q).halted = c.halted := rfl
@[simp] theorem Core.setQueue_iterMark (c : Core) (n : Nat) (q : List Word) : (c.setQueue n q).iterMark = c.iterMark := rfl
@[simp] theorem Core.setQueue_held (c : Core) (n : Nat) (q : List Word) : (c.setQueue n q).held = c.held := rfl
@[simp] theorem Core.setQueue_engV (c : Core) (n : Nat) (q : List Word) : (c.setQueue n q).engV = c.engV := rfl
@[simp] theorem Core.setQueue_engM (c : Core) (n : Nat) (q : List Word) : (c.setQueue n q).engM = c.engM := rfl
@[simp] theorem Core.setQueue_engL (c : Core) (n : Nat) (q : List Word) : (c.setQueue n q).engL = c.engL := rfl
@[simp] theorem Core.setQueue_engE (c : Core) (n : Nat) (q : List Word) : (c.setQueue n q).engE = c.engE := rfl
@[simp] theorem Core.setQueue_matrix (c : Core) (n : Nat) (q : List Word) : (c.setQueue n q).matrix = c.matrix := rfl
@[simp] theorem Core.setQueue_vmet (c : Core) (n : Nat) (q : List Word) : (c.setQueue n q).vmet = c.vmet := rfl
@[simp] theorem Core.setQueue_vrows (c : Core) (n : Nat) (q : List Word) : (c.setQueue n q).vrows = c.vrows := rfl
@[simp] theorem Core.setQueue_vpushed (c : Core) (n : Nat) (q : List Word) : (c.setQueue n q).vpushed = c.vpushed := rfl
@[simp] theorem Core.setQueue_lmet (c : Core) (n : Nat) (q : List Word) : (c.setQueue n q).lmet = c.lmet := rfl
@[simp] theorem Core.setQueue_xfers (c : Core) (n : Nat) (q : List Word) : (c.setQueue n q).xfers = c.xfers := rfl
@[simp] theorem Core.setQueue_faultRec (c : Core) (n : Nat) (q : List Word) : (c.setQueue n q).faultRec = c.faultRec := rfl
@[simp] theorem Core.setQueue_heldWrites (c : Core) (n : Nat) (q : List Word) : (c.setQueue n q).heldWrites = c.heldWrites := rfl
@[simp] theorem Core.setQueue_overlay (c : Core) (n : Nat) (q : List Word) : (c.setQueue n q).overlay = c.overlay := rfl
@[simp] theorem Core.setQueue_task (c : Core) (n : Nat) (q : List Word) : (c.setQueue n q).task = c.task := rfl
@[simp] theorem Core.setQueue_warm (c : Core) (n : Nat) (q : List Word) : (c.setQueue n q).warm = c.warm := rfl
@[simp] theorem Core.setQueue_saved (c : Core) (n : Nat) (q : List Word) : (c.setQueue n q).saved = c.saved := rfl
@[simp] theorem Core.setQueue_sigLeft (c : Core) (n : Nat) (q : List Word) : (c.setQueue n q).sigLeft = c.sigLeft := rfl
@[simp] theorem Core.setQueue_pend (c : Core) (n : Nat) (q : List Word) : (c.setQueue n q).pend = c.pend := rfl
@[simp] theorem Core.setQueue_dbg (c : Core) (n : Nat) (q : List Word) : (c.setQueue n q).dbg = c.dbg := rfl

/-! ## setEng -/

@[simp] theorem Core.setEng_phys (c : Core) (e : Eng) (x : Engine) : (c.setEng e x).phys = c.phys := by
  cases e <;> rfl
@[simp] theorem Core.setEng_pc (c : Core) (e : Eng) (x : Engine) : (c.setEng e x).pc = c.pc := by
  cases e <;> rfl
@[simp] theorem Core.setEng_regs (c : Core) (e : Eng) (x : Engine) : (c.setEng e x).regs = c.regs := by
  cases e <;> rfl
@[simp] theorem Core.setEng_preds (c : Core) (e : Eng) (x : Engine) : (c.setEng e x).preds = c.preds := by
  cases e <;> rfl
@[simp] theorem Core.setEng_handles (c : Core) (e : Eng) (x : Engine) : (c.setEng e x).handles = c.handles := by
  cases e <;> rfl
@[simp] theorem Core.setEng_queues (c : Core) (e : Eng) (x : Engine) : (c.setEng e x).queues = c.queues := by
  cases e <;> rfl
@[simp] theorem Core.setEng_csr (c : Core) (e : Eng) (x : Engine) : (c.setEng e x).csr = c.csr := by
  cases e <;> rfl
@[simp] theorem Core.setEng_mem (c : Core) (e : Eng) (x : Engine) : (c.setEng e x).mem = c.mem := by
  cases e <;> rfl
@[simp] theorem Core.setEng_poison (c : Core) (e : Eng) (x : Engine) : (c.setEng e x).poison = c.poison := by
  cases e <;> rfl
@[simp] theorem Core.setEng_full (c : Core) (e : Eng) (x : Engine) : (c.setEng e x).full = c.full := by
  cases e <;> rfl
@[simp] theorem Core.setEng_readFull (c : Core) (e : Eng) (x : Engine) : (c.setEng e x).readFull = c.readFull := by
  cases e <;> rfl
@[simp] theorem Core.setEng_imem (c : Core) (e : Eng) (x : Engine) : (c.setEng e x).imem = c.imem := by
  cases e <;> rfl
@[simp] theorem Core.setEng_imemPoison (c : Core) (e : Eng) (x : Engine) : (c.setEng e x).imemPoison = c.imemPoison := by
  cases e <;> rfl
@[simp] theorem Core.setEng_pageValid (c : Core) (e : Eng) (x : Engine) : (c.setEng e x).pageValid = c.pageValid := by
  cases e <;> rfl
@[simp] theorem Core.setEng_pageExec (c : Core) (e : Eng) (x : Engine) : (c.setEng e x).pageExec = c.pageExec := by
  cases e <;> rfl
@[simp] theorem Core.setEng_pst (c : Core) (e : Eng) (x : Engine) : (c.setEng e x).pst = c.pst := by
  cases e <;> rfl
@[simp] theorem Core.setEng_halted (c : Core) (e : Eng) (x : Engine) : (c.setEng e x).halted = c.halted := by
  cases e <;> rfl
@[simp] theorem Core.setEng_iterMark (c : Core) (e : Eng) (x : Engine) : (c.setEng e x).iterMark = c.iterMark := by
  cases e <;> rfl
@[simp] theorem Core.setEng_held (c : Core) (e : Eng) (x : Engine) : (c.setEng e x).held = c.held := by
  cases e <;> rfl
@[simp] theorem Core.setEng_matrix (c : Core) (e : Eng) (x : Engine) : (c.setEng e x).matrix = c.matrix := by
  cases e <;> rfl
@[simp] theorem Core.setEng_vmet (c : Core) (e : Eng) (x : Engine) : (c.setEng e x).vmet = c.vmet := by
  cases e <;> rfl
@[simp] theorem Core.setEng_vrows (c : Core) (e : Eng) (x : Engine) : (c.setEng e x).vrows = c.vrows := by
  cases e <;> rfl
@[simp] theorem Core.setEng_vpushed (c : Core) (e : Eng) (x : Engine) : (c.setEng e x).vpushed = c.vpushed := by
  cases e <;> rfl
@[simp] theorem Core.setEng_lmet (c : Core) (e : Eng) (x : Engine) : (c.setEng e x).lmet = c.lmet := by
  cases e <;> rfl
@[simp] theorem Core.setEng_xfers (c : Core) (e : Eng) (x : Engine) : (c.setEng e x).xfers = c.xfers := by
  cases e <;> rfl
@[simp] theorem Core.setEng_faultRec (c : Core) (e : Eng) (x : Engine) : (c.setEng e x).faultRec = c.faultRec := by
  cases e <;> rfl
@[simp] theorem Core.setEng_heldWrites (c : Core) (e : Eng) (x : Engine) : (c.setEng e x).heldWrites = c.heldWrites := by
  cases e <;> rfl
@[simp] theorem Core.setEng_overlay (c : Core) (e : Eng) (x : Engine) : (c.setEng e x).overlay = c.overlay := by
  cases e <;> rfl
@[simp] theorem Core.setEng_task (c : Core) (e : Eng) (x : Engine) : (c.setEng e x).task = c.task := by
  cases e <;> rfl
@[simp] theorem Core.setEng_warm (c : Core) (e : Eng) (x : Engine) : (c.setEng e x).warm = c.warm := by
  cases e <;> rfl
@[simp] theorem Core.setEng_saved (c : Core) (e : Eng) (x : Engine) : (c.setEng e x).saved = c.saved := by
  cases e <;> rfl
@[simp] theorem Core.setEng_sigLeft (c : Core) (e : Eng) (x : Engine) : (c.setEng e x).sigLeft = c.sigLeft := by
  cases e <;> rfl
@[simp] theorem Core.setEng_pend (c : Core) (e : Eng) (x : Engine) : (c.setEng e x).pend = c.pend := by
  cases e <;> rfl
@[simp] theorem Core.setEng_dbg (c : Core) (e : Eng) (x : Engine) : (c.setEng e x).dbg = c.dbg := by
  cases e <;> rfl

/-! ## markFull -/

@[simp] theorem Core.markFull_phys (c : Core) (a n : Nat) (b : Bool) : (c.markFull a n b).phys = c.phys := rfl
@[simp] theorem Core.markFull_pc (c : Core) (a n : Nat) (b : Bool) : (c.markFull a n b).pc = c.pc := rfl
@[simp] theorem Core.markFull_regs (c : Core) (a n : Nat) (b : Bool) : (c.markFull a n b).regs = c.regs := rfl
@[simp] theorem Core.markFull_preds (c : Core) (a n : Nat) (b : Bool) : (c.markFull a n b).preds = c.preds := rfl
@[simp] theorem Core.markFull_handles (c : Core) (a n : Nat) (b : Bool) : (c.markFull a n b).handles = c.handles := rfl
@[simp] theorem Core.markFull_queues (c : Core) (a n : Nat) (b : Bool) : (c.markFull a n b).queues = c.queues := rfl
@[simp] theorem Core.markFull_csr (c : Core) (a n : Nat) (b : Bool) : (c.markFull a n b).csr = c.csr := rfl
@[simp] theorem Core.markFull_mem (c : Core) (a n : Nat) (b : Bool) : (c.markFull a n b).mem = c.mem := rfl
@[simp] theorem Core.markFull_poison (c : Core) (a n : Nat) (b : Bool) : (c.markFull a n b).poison = c.poison := rfl
@[simp] theorem Core.markFull_readFull (c : Core) (a n : Nat) (b : Bool) : (c.markFull a n b).readFull = c.readFull := rfl
@[simp] theorem Core.markFull_imem (c : Core) (a n : Nat) (b : Bool) : (c.markFull a n b).imem = c.imem := rfl
@[simp] theorem Core.markFull_imemPoison (c : Core) (a n : Nat) (b : Bool) : (c.markFull a n b).imemPoison = c.imemPoison := rfl
@[simp] theorem Core.markFull_pageValid (c : Core) (a n : Nat) (b : Bool) : (c.markFull a n b).pageValid = c.pageValid := rfl
@[simp] theorem Core.markFull_pageExec (c : Core) (a n : Nat) (b : Bool) : (c.markFull a n b).pageExec = c.pageExec := rfl
@[simp] theorem Core.markFull_pst (c : Core) (a n : Nat) (b : Bool) : (c.markFull a n b).pst = c.pst := rfl
@[simp] theorem Core.markFull_halted (c : Core) (a n : Nat) (b : Bool) : (c.markFull a n b).halted = c.halted := rfl
@[simp] theorem Core.markFull_iterMark (c : Core) (a n : Nat) (b : Bool) : (c.markFull a n b).iterMark = c.iterMark := rfl
@[simp] theorem Core.markFull_held (c : Core) (a n : Nat) (b : Bool) : (c.markFull a n b).held = c.held := rfl
@[simp] theorem Core.markFull_engV (c : Core) (a n : Nat) (b : Bool) : (c.markFull a n b).engV = c.engV := rfl
@[simp] theorem Core.markFull_engM (c : Core) (a n : Nat) (b : Bool) : (c.markFull a n b).engM = c.engM := rfl
@[simp] theorem Core.markFull_engL (c : Core) (a n : Nat) (b : Bool) : (c.markFull a n b).engL = c.engL := rfl
@[simp] theorem Core.markFull_engE (c : Core) (a n : Nat) (b : Bool) : (c.markFull a n b).engE = c.engE := rfl
@[simp] theorem Core.markFull_matrix (c : Core) (a n : Nat) (b : Bool) : (c.markFull a n b).matrix = c.matrix := rfl
@[simp] theorem Core.markFull_vmet (c : Core) (a n : Nat) (b : Bool) : (c.markFull a n b).vmet = c.vmet := rfl
@[simp] theorem Core.markFull_vrows (c : Core) (a n : Nat) (b : Bool) : (c.markFull a n b).vrows = c.vrows := rfl
@[simp] theorem Core.markFull_vpushed (c : Core) (a n : Nat) (b : Bool) : (c.markFull a n b).vpushed = c.vpushed := rfl
@[simp] theorem Core.markFull_lmet (c : Core) (a n : Nat) (b : Bool) : (c.markFull a n b).lmet = c.lmet := rfl
@[simp] theorem Core.markFull_xfers (c : Core) (a n : Nat) (b : Bool) : (c.markFull a n b).xfers = c.xfers := rfl
@[simp] theorem Core.markFull_faultRec (c : Core) (a n : Nat) (b : Bool) : (c.markFull a n b).faultRec = c.faultRec := rfl
@[simp] theorem Core.markFull_heldWrites (c : Core) (a n : Nat) (b : Bool) : (c.markFull a n b).heldWrites = c.heldWrites := rfl
@[simp] theorem Core.markFull_overlay (c : Core) (a n : Nat) (b : Bool) : (c.markFull a n b).overlay = c.overlay := rfl
@[simp] theorem Core.markFull_task (c : Core) (a n : Nat) (b : Bool) : (c.markFull a n b).task = c.task := rfl
@[simp] theorem Core.markFull_warm (c : Core) (a n : Nat) (b : Bool) : (c.markFull a n b).warm = c.warm := rfl
@[simp] theorem Core.markFull_saved (c : Core) (a n : Nat) (b : Bool) : (c.markFull a n b).saved = c.saved := rfl
@[simp] theorem Core.markFull_sigLeft (c : Core) (a n : Nat) (b : Bool) : (c.markFull a n b).sigLeft = c.sigLeft := rfl
@[simp] theorem Core.markFull_pend (c : Core) (a n : Nat) (b : Bool) : (c.markFull a n b).pend = c.pend := rfl
@[simp] theorem Core.markFull_dbg (c : Core) (a n : Nat) (b : Bool) : (c.markFull a n b).dbg = c.dbg := rfl

/-! ## cleanPoison -/

@[simp] theorem Core.cleanPoison_phys (c : Core) (a n : Nat) : (c.cleanPoison a n).phys = c.phys := rfl
@[simp] theorem Core.cleanPoison_pc (c : Core) (a n : Nat) : (c.cleanPoison a n).pc = c.pc := rfl
@[simp] theorem Core.cleanPoison_regs (c : Core) (a n : Nat) : (c.cleanPoison a n).regs = c.regs := rfl
@[simp] theorem Core.cleanPoison_preds (c : Core) (a n : Nat) : (c.cleanPoison a n).preds = c.preds := rfl
@[simp] theorem Core.cleanPoison_handles (c : Core) (a n : Nat) : (c.cleanPoison a n).handles = c.handles := rfl
@[simp] theorem Core.cleanPoison_queues (c : Core) (a n : Nat) : (c.cleanPoison a n).queues = c.queues := rfl
@[simp] theorem Core.cleanPoison_csr (c : Core) (a n : Nat) : (c.cleanPoison a n).csr = c.csr := rfl
@[simp] theorem Core.cleanPoison_mem (c : Core) (a n : Nat) : (c.cleanPoison a n).mem = c.mem := rfl
@[simp] theorem Core.cleanPoison_full (c : Core) (a n : Nat) : (c.cleanPoison a n).full = c.full := rfl
@[simp] theorem Core.cleanPoison_readFull (c : Core) (a n : Nat) : (c.cleanPoison a n).readFull = c.readFull := rfl
@[simp] theorem Core.cleanPoison_imem (c : Core) (a n : Nat) : (c.cleanPoison a n).imem = c.imem := rfl
@[simp] theorem Core.cleanPoison_imemPoison (c : Core) (a n : Nat) : (c.cleanPoison a n).imemPoison = c.imemPoison := rfl
@[simp] theorem Core.cleanPoison_pageValid (c : Core) (a n : Nat) : (c.cleanPoison a n).pageValid = c.pageValid := rfl
@[simp] theorem Core.cleanPoison_pageExec (c : Core) (a n : Nat) : (c.cleanPoison a n).pageExec = c.pageExec := rfl
@[simp] theorem Core.cleanPoison_pst (c : Core) (a n : Nat) : (c.cleanPoison a n).pst = c.pst := rfl
@[simp] theorem Core.cleanPoison_halted (c : Core) (a n : Nat) : (c.cleanPoison a n).halted = c.halted := rfl
@[simp] theorem Core.cleanPoison_iterMark (c : Core) (a n : Nat) : (c.cleanPoison a n).iterMark = c.iterMark := rfl
@[simp] theorem Core.cleanPoison_held (c : Core) (a n : Nat) : (c.cleanPoison a n).held = c.held := rfl
@[simp] theorem Core.cleanPoison_engV (c : Core) (a n : Nat) : (c.cleanPoison a n).engV = c.engV := rfl
@[simp] theorem Core.cleanPoison_engM (c : Core) (a n : Nat) : (c.cleanPoison a n).engM = c.engM := rfl
@[simp] theorem Core.cleanPoison_engL (c : Core) (a n : Nat) : (c.cleanPoison a n).engL = c.engL := rfl
@[simp] theorem Core.cleanPoison_engE (c : Core) (a n : Nat) : (c.cleanPoison a n).engE = c.engE := rfl
@[simp] theorem Core.cleanPoison_matrix (c : Core) (a n : Nat) : (c.cleanPoison a n).matrix = c.matrix := rfl
@[simp] theorem Core.cleanPoison_vmet (c : Core) (a n : Nat) : (c.cleanPoison a n).vmet = c.vmet := rfl
@[simp] theorem Core.cleanPoison_vrows (c : Core) (a n : Nat) : (c.cleanPoison a n).vrows = c.vrows := rfl
@[simp] theorem Core.cleanPoison_vpushed (c : Core) (a n : Nat) : (c.cleanPoison a n).vpushed = c.vpushed := rfl
@[simp] theorem Core.cleanPoison_lmet (c : Core) (a n : Nat) : (c.cleanPoison a n).lmet = c.lmet := rfl
@[simp] theorem Core.cleanPoison_xfers (c : Core) (a n : Nat) : (c.cleanPoison a n).xfers = c.xfers := rfl
@[simp] theorem Core.cleanPoison_faultRec (c : Core) (a n : Nat) : (c.cleanPoison a n).faultRec = c.faultRec := rfl
@[simp] theorem Core.cleanPoison_heldWrites (c : Core) (a n : Nat) : (c.cleanPoison a n).heldWrites = c.heldWrites := rfl
@[simp] theorem Core.cleanPoison_overlay (c : Core) (a n : Nat) : (c.cleanPoison a n).overlay = c.overlay := rfl
@[simp] theorem Core.cleanPoison_task (c : Core) (a n : Nat) : (c.cleanPoison a n).task = c.task := rfl
@[simp] theorem Core.cleanPoison_warm (c : Core) (a n : Nat) : (c.cleanPoison a n).warm = c.warm := rfl
@[simp] theorem Core.cleanPoison_saved (c : Core) (a n : Nat) : (c.cleanPoison a n).saved = c.saved := rfl
@[simp] theorem Core.cleanPoison_sigLeft (c : Core) (a n : Nat) : (c.cleanPoison a n).sigLeft = c.sigLeft := rfl
@[simp] theorem Core.cleanPoison_pend (c : Core) (a n : Nat) : (c.cleanPoison a n).pend = c.pend := rfl
@[simp] theorem Core.cleanPoison_dbg (c : Core) (a n : Nat) : (c.cleanPoison a n).dbg = c.dbg := rfl

/-! ## storeLocal -/

@[simp] theorem Core.storeLocal_phys (c : Core) (a n v : Nat) : (c.storeLocal a n v).phys = c.phys := rfl
@[simp] theorem Core.storeLocal_pc (c : Core) (a n v : Nat) : (c.storeLocal a n v).pc = c.pc := rfl
@[simp] theorem Core.storeLocal_regs (c : Core) (a n v : Nat) : (c.storeLocal a n v).regs = c.regs := rfl
@[simp] theorem Core.storeLocal_preds (c : Core) (a n v : Nat) : (c.storeLocal a n v).preds = c.preds := rfl
@[simp] theorem Core.storeLocal_handles (c : Core) (a n v : Nat) : (c.storeLocal a n v).handles = c.handles := rfl
@[simp] theorem Core.storeLocal_queues (c : Core) (a n v : Nat) : (c.storeLocal a n v).queues = c.queues := rfl
@[simp] theorem Core.storeLocal_csr (c : Core) (a n v : Nat) : (c.storeLocal a n v).csr = c.csr := rfl
@[simp] theorem Core.storeLocal_readFull (c : Core) (a n v : Nat) : (c.storeLocal a n v).readFull = c.readFull := rfl
@[simp] theorem Core.storeLocal_imem (c : Core) (a n v : Nat) : (c.storeLocal a n v).imem = c.imem := rfl
@[simp] theorem Core.storeLocal_imemPoison (c : Core) (a n v : Nat) : (c.storeLocal a n v).imemPoison = c.imemPoison := rfl
@[simp] theorem Core.storeLocal_pageValid (c : Core) (a n v : Nat) : (c.storeLocal a n v).pageValid = c.pageValid := rfl
@[simp] theorem Core.storeLocal_pageExec (c : Core) (a n v : Nat) : (c.storeLocal a n v).pageExec = c.pageExec := rfl
@[simp] theorem Core.storeLocal_pst (c : Core) (a n v : Nat) : (c.storeLocal a n v).pst = c.pst := rfl
@[simp] theorem Core.storeLocal_halted (c : Core) (a n v : Nat) : (c.storeLocal a n v).halted = c.halted := rfl
@[simp] theorem Core.storeLocal_iterMark (c : Core) (a n v : Nat) : (c.storeLocal a n v).iterMark = c.iterMark := rfl
@[simp] theorem Core.storeLocal_held (c : Core) (a n v : Nat) : (c.storeLocal a n v).held = c.held := rfl
@[simp] theorem Core.storeLocal_engV (c : Core) (a n v : Nat) : (c.storeLocal a n v).engV = c.engV := rfl
@[simp] theorem Core.storeLocal_engM (c : Core) (a n v : Nat) : (c.storeLocal a n v).engM = c.engM := rfl
@[simp] theorem Core.storeLocal_engL (c : Core) (a n v : Nat) : (c.storeLocal a n v).engL = c.engL := rfl
@[simp] theorem Core.storeLocal_engE (c : Core) (a n v : Nat) : (c.storeLocal a n v).engE = c.engE := rfl
@[simp] theorem Core.storeLocal_matrix (c : Core) (a n v : Nat) : (c.storeLocal a n v).matrix = c.matrix := rfl
@[simp] theorem Core.storeLocal_vmet (c : Core) (a n v : Nat) : (c.storeLocal a n v).vmet = c.vmet := rfl
@[simp] theorem Core.storeLocal_vrows (c : Core) (a n v : Nat) : (c.storeLocal a n v).vrows = c.vrows := rfl
@[simp] theorem Core.storeLocal_vpushed (c : Core) (a n v : Nat) : (c.storeLocal a n v).vpushed = c.vpushed := rfl
@[simp] theorem Core.storeLocal_lmet (c : Core) (a n v : Nat) : (c.storeLocal a n v).lmet = c.lmet := rfl
@[simp] theorem Core.storeLocal_xfers (c : Core) (a n v : Nat) : (c.storeLocal a n v).xfers = c.xfers := rfl
@[simp] theorem Core.storeLocal_faultRec (c : Core) (a n v : Nat) : (c.storeLocal a n v).faultRec = c.faultRec := rfl
@[simp] theorem Core.storeLocal_heldWrites (c : Core) (a n v : Nat) : (c.storeLocal a n v).heldWrites = c.heldWrites := rfl
@[simp] theorem Core.storeLocal_overlay (c : Core) (a n v : Nat) : (c.storeLocal a n v).overlay = c.overlay := rfl
@[simp] theorem Core.storeLocal_task (c : Core) (a n v : Nat) : (c.storeLocal a n v).task = c.task := rfl
@[simp] theorem Core.storeLocal_warm (c : Core) (a n v : Nat) : (c.storeLocal a n v).warm = c.warm := rfl
@[simp] theorem Core.storeLocal_saved (c : Core) (a n v : Nat) : (c.storeLocal a n v).saved = c.saved := rfl
@[simp] theorem Core.storeLocal_sigLeft (c : Core) (a n v : Nat) : (c.storeLocal a n v).sigLeft = c.sigLeft := rfl
@[simp] theorem Core.storeLocal_pend (c : Core) (a n v : Nat) : (c.storeLocal a n v).pend = c.pend := rfl
@[simp] theorem Core.storeLocal_dbg (c : Core) (a n v : Nat) : (c.storeLocal a n v).dbg = c.dbg := rfl

/-! ## count -/

@[simp] theorem Core.count_phys (c : Core) (k : Nat) (b : Bool) : (c.count k b).phys = c.phys := rfl
@[simp] theorem Core.count_pc (c : Core) (k : Nat) (b : Bool) : (c.count k b).pc = c.pc := rfl
@[simp] theorem Core.count_regs (c : Core) (k : Nat) (b : Bool) : (c.count k b).regs = c.regs := rfl
@[simp] theorem Core.count_preds (c : Core) (k : Nat) (b : Bool) : (c.count k b).preds = c.preds := rfl
@[simp] theorem Core.count_handles (c : Core) (k : Nat) (b : Bool) : (c.count k b).handles = c.handles := rfl
@[simp] theorem Core.count_queues (c : Core) (k : Nat) (b : Bool) : (c.count k b).queues = c.queues := rfl
@[simp] theorem Core.count_mem (c : Core) (k : Nat) (b : Bool) : (c.count k b).mem = c.mem := rfl
@[simp] theorem Core.count_poison (c : Core) (k : Nat) (b : Bool) : (c.count k b).poison = c.poison := rfl
@[simp] theorem Core.count_full (c : Core) (k : Nat) (b : Bool) : (c.count k b).full = c.full := rfl
@[simp] theorem Core.count_readFull (c : Core) (k : Nat) (b : Bool) : (c.count k b).readFull = c.readFull := rfl
@[simp] theorem Core.count_imem (c : Core) (k : Nat) (b : Bool) : (c.count k b).imem = c.imem := rfl
@[simp] theorem Core.count_imemPoison (c : Core) (k : Nat) (b : Bool) : (c.count k b).imemPoison = c.imemPoison := rfl
@[simp] theorem Core.count_pageValid (c : Core) (k : Nat) (b : Bool) : (c.count k b).pageValid = c.pageValid := rfl
@[simp] theorem Core.count_pageExec (c : Core) (k : Nat) (b : Bool) : (c.count k b).pageExec = c.pageExec := rfl
@[simp] theorem Core.count_pst (c : Core) (k : Nat) (b : Bool) : (c.count k b).pst = c.pst := rfl
@[simp] theorem Core.count_halted (c : Core) (k : Nat) (b : Bool) : (c.count k b).halted = c.halted := rfl
@[simp] theorem Core.count_iterMark (c : Core) (k : Nat) (b : Bool) : (c.count k b).iterMark = c.iterMark := rfl
@[simp] theorem Core.count_engV (c : Core) (k : Nat) (b : Bool) : (c.count k b).engV = c.engV := rfl
@[simp] theorem Core.count_engM (c : Core) (k : Nat) (b : Bool) : (c.count k b).engM = c.engM := rfl
@[simp] theorem Core.count_engL (c : Core) (k : Nat) (b : Bool) : (c.count k b).engL = c.engL := rfl
@[simp] theorem Core.count_engE (c : Core) (k : Nat) (b : Bool) : (c.count k b).engE = c.engE := rfl
@[simp] theorem Core.count_matrix (c : Core) (k : Nat) (b : Bool) : (c.count k b).matrix = c.matrix := rfl
@[simp] theorem Core.count_vmet (c : Core) (k : Nat) (b : Bool) : (c.count k b).vmet = c.vmet := rfl
@[simp] theorem Core.count_vrows (c : Core) (k : Nat) (b : Bool) : (c.count k b).vrows = c.vrows := rfl
@[simp] theorem Core.count_vpushed (c : Core) (k : Nat) (b : Bool) : (c.count k b).vpushed = c.vpushed := rfl
@[simp] theorem Core.count_lmet (c : Core) (k : Nat) (b : Bool) : (c.count k b).lmet = c.lmet := rfl
@[simp] theorem Core.count_xfers (c : Core) (k : Nat) (b : Bool) : (c.count k b).xfers = c.xfers := rfl
@[simp] theorem Core.count_faultRec (c : Core) (k : Nat) (b : Bool) : (c.count k b).faultRec = c.faultRec := rfl
@[simp] theorem Core.count_heldWrites (c : Core) (k : Nat) (b : Bool) : (c.count k b).heldWrites = c.heldWrites := rfl
@[simp] theorem Core.count_overlay (c : Core) (k : Nat) (b : Bool) : (c.count k b).overlay = c.overlay := rfl
@[simp] theorem Core.count_task (c : Core) (k : Nat) (b : Bool) : (c.count k b).task = c.task := rfl
@[simp] theorem Core.count_warm (c : Core) (k : Nat) (b : Bool) : (c.count k b).warm = c.warm := rfl
@[simp] theorem Core.count_saved (c : Core) (k : Nat) (b : Bool) : (c.count k b).saved = c.saved := rfl
@[simp] theorem Core.count_sigLeft (c : Core) (k : Nat) (b : Bool) : (c.count k b).sigLeft = c.sigLeft := rfl
@[simp] theorem Core.count_pend (c : Core) (k : Nat) (b : Bool) : (c.count k b).pend = c.pend := rfl

/-! ## setXf -/

@[simp] theorem Core.setXf_phys (c : Core) (k : Nat) : (c.setXf k).phys = c.phys := rfl
@[simp] theorem Core.setXf_pc (c : Core) (k : Nat) : (c.setXf k).pc = c.pc := rfl
@[simp] theorem Core.setXf_regs (c : Core) (k : Nat) : (c.setXf k).regs = c.regs := rfl
@[simp] theorem Core.setXf_preds (c : Core) (k : Nat) : (c.setXf k).preds = c.preds := rfl
@[simp] theorem Core.setXf_handles (c : Core) (k : Nat) : (c.setXf k).handles = c.handles := rfl
@[simp] theorem Core.setXf_queues (c : Core) (k : Nat) : (c.setXf k).queues = c.queues := rfl
@[simp] theorem Core.setXf_mem (c : Core) (k : Nat) : (c.setXf k).mem = c.mem := rfl
@[simp] theorem Core.setXf_poison (c : Core) (k : Nat) : (c.setXf k).poison = c.poison := rfl
@[simp] theorem Core.setXf_full (c : Core) (k : Nat) : (c.setXf k).full = c.full := rfl
@[simp] theorem Core.setXf_readFull (c : Core) (k : Nat) : (c.setXf k).readFull = c.readFull := rfl
@[simp] theorem Core.setXf_imem (c : Core) (k : Nat) : (c.setXf k).imem = c.imem := rfl
@[simp] theorem Core.setXf_imemPoison (c : Core) (k : Nat) : (c.setXf k).imemPoison = c.imemPoison := rfl
@[simp] theorem Core.setXf_pageValid (c : Core) (k : Nat) : (c.setXf k).pageValid = c.pageValid := rfl
@[simp] theorem Core.setXf_pageExec (c : Core) (k : Nat) : (c.setXf k).pageExec = c.pageExec := rfl
@[simp] theorem Core.setXf_pst (c : Core) (k : Nat) : (c.setXf k).pst = c.pst := rfl
@[simp] theorem Core.setXf_halted (c : Core) (k : Nat) : (c.setXf k).halted = c.halted := rfl
@[simp] theorem Core.setXf_iterMark (c : Core) (k : Nat) : (c.setXf k).iterMark = c.iterMark := rfl
@[simp] theorem Core.setXf_held (c : Core) (k : Nat) : (c.setXf k).held = c.held := rfl
@[simp] theorem Core.setXf_engV (c : Core) (k : Nat) : (c.setXf k).engV = c.engV := rfl
@[simp] theorem Core.setXf_engM (c : Core) (k : Nat) : (c.setXf k).engM = c.engM := rfl
@[simp] theorem Core.setXf_engL (c : Core) (k : Nat) : (c.setXf k).engL = c.engL := rfl
@[simp] theorem Core.setXf_engE (c : Core) (k : Nat) : (c.setXf k).engE = c.engE := rfl
@[simp] theorem Core.setXf_matrix (c : Core) (k : Nat) : (c.setXf k).matrix = c.matrix := rfl
@[simp] theorem Core.setXf_vmet (c : Core) (k : Nat) : (c.setXf k).vmet = c.vmet := rfl
@[simp] theorem Core.setXf_vrows (c : Core) (k : Nat) : (c.setXf k).vrows = c.vrows := rfl
@[simp] theorem Core.setXf_vpushed (c : Core) (k : Nat) : (c.setXf k).vpushed = c.vpushed := rfl
@[simp] theorem Core.setXf_lmet (c : Core) (k : Nat) : (c.setXf k).lmet = c.lmet := rfl
@[simp] theorem Core.setXf_xfers (c : Core) (k : Nat) : (c.setXf k).xfers = c.xfers := rfl
@[simp] theorem Core.setXf_faultRec (c : Core) (k : Nat) : (c.setXf k).faultRec = c.faultRec := rfl
@[simp] theorem Core.setXf_heldWrites (c : Core) (k : Nat) : (c.setXf k).heldWrites = c.heldWrites := rfl
@[simp] theorem Core.setXf_overlay (c : Core) (k : Nat) : (c.setXf k).overlay = c.overlay := rfl
@[simp] theorem Core.setXf_task (c : Core) (k : Nat) : (c.setXf k).task = c.task := rfl
@[simp] theorem Core.setXf_warm (c : Core) (k : Nat) : (c.setXf k).warm = c.warm := rfl
@[simp] theorem Core.setXf_saved (c : Core) (k : Nat) : (c.setXf k).saved = c.saved := rfl
@[simp] theorem Core.setXf_sigLeft (c : Core) (k : Nat) : (c.setXf k).sigLeft = c.sigLeft := rfl
@[simp] theorem Core.setXf_pend (c : Core) (k : Nat) : (c.setXf k).pend = c.pend := rfl
@[simp] theorem Core.setXf_dbg (c : Core) (k : Nat) : (c.setXf k).dbg = c.dbg := rfl

/-! ## setVstat -/

@[simp] theorem Core.setVstat_phys (c : Core) (k : Nat) : (c.setVstat k).phys = c.phys := rfl
@[simp] theorem Core.setVstat_pc (c : Core) (k : Nat) : (c.setVstat k).pc = c.pc := rfl
@[simp] theorem Core.setVstat_regs (c : Core) (k : Nat) : (c.setVstat k).regs = c.regs := rfl
@[simp] theorem Core.setVstat_preds (c : Core) (k : Nat) : (c.setVstat k).preds = c.preds := rfl
@[simp] theorem Core.setVstat_handles (c : Core) (k : Nat) : (c.setVstat k).handles = c.handles := rfl
@[simp] theorem Core.setVstat_queues (c : Core) (k : Nat) : (c.setVstat k).queues = c.queues := rfl
@[simp] theorem Core.setVstat_mem (c : Core) (k : Nat) : (c.setVstat k).mem = c.mem := rfl
@[simp] theorem Core.setVstat_poison (c : Core) (k : Nat) : (c.setVstat k).poison = c.poison := rfl
@[simp] theorem Core.setVstat_full (c : Core) (k : Nat) : (c.setVstat k).full = c.full := rfl
@[simp] theorem Core.setVstat_readFull (c : Core) (k : Nat) : (c.setVstat k).readFull = c.readFull := rfl
@[simp] theorem Core.setVstat_imem (c : Core) (k : Nat) : (c.setVstat k).imem = c.imem := rfl
@[simp] theorem Core.setVstat_imemPoison (c : Core) (k : Nat) : (c.setVstat k).imemPoison = c.imemPoison := rfl
@[simp] theorem Core.setVstat_pageValid (c : Core) (k : Nat) : (c.setVstat k).pageValid = c.pageValid := rfl
@[simp] theorem Core.setVstat_pageExec (c : Core) (k : Nat) : (c.setVstat k).pageExec = c.pageExec := rfl
@[simp] theorem Core.setVstat_pst (c : Core) (k : Nat) : (c.setVstat k).pst = c.pst := rfl
@[simp] theorem Core.setVstat_halted (c : Core) (k : Nat) : (c.setVstat k).halted = c.halted := rfl
@[simp] theorem Core.setVstat_iterMark (c : Core) (k : Nat) : (c.setVstat k).iterMark = c.iterMark := rfl
@[simp] theorem Core.setVstat_held (c : Core) (k : Nat) : (c.setVstat k).held = c.held := rfl
@[simp] theorem Core.setVstat_engV (c : Core) (k : Nat) : (c.setVstat k).engV = c.engV := rfl
@[simp] theorem Core.setVstat_engM (c : Core) (k : Nat) : (c.setVstat k).engM = c.engM := rfl
@[simp] theorem Core.setVstat_engL (c : Core) (k : Nat) : (c.setVstat k).engL = c.engL := rfl
@[simp] theorem Core.setVstat_engE (c : Core) (k : Nat) : (c.setVstat k).engE = c.engE := rfl
@[simp] theorem Core.setVstat_matrix (c : Core) (k : Nat) : (c.setVstat k).matrix = c.matrix := rfl
@[simp] theorem Core.setVstat_vmet (c : Core) (k : Nat) : (c.setVstat k).vmet = c.vmet := rfl
@[simp] theorem Core.setVstat_vrows (c : Core) (k : Nat) : (c.setVstat k).vrows = c.vrows := rfl
@[simp] theorem Core.setVstat_vpushed (c : Core) (k : Nat) : (c.setVstat k).vpushed = c.vpushed := rfl
@[simp] theorem Core.setVstat_lmet (c : Core) (k : Nat) : (c.setVstat k).lmet = c.lmet := rfl
@[simp] theorem Core.setVstat_xfers (c : Core) (k : Nat) : (c.setVstat k).xfers = c.xfers := rfl
@[simp] theorem Core.setVstat_faultRec (c : Core) (k : Nat) : (c.setVstat k).faultRec = c.faultRec := rfl
@[simp] theorem Core.setVstat_heldWrites (c : Core) (k : Nat) : (c.setVstat k).heldWrites = c.heldWrites := rfl
@[simp] theorem Core.setVstat_overlay (c : Core) (k : Nat) : (c.setVstat k).overlay = c.overlay := rfl
@[simp] theorem Core.setVstat_task (c : Core) (k : Nat) : (c.setVstat k).task = c.task := rfl
@[simp] theorem Core.setVstat_warm (c : Core) (k : Nat) : (c.setVstat k).warm = c.warm := rfl
@[simp] theorem Core.setVstat_saved (c : Core) (k : Nat) : (c.setVstat k).saved = c.saved := rfl
@[simp] theorem Core.setVstat_sigLeft (c : Core) (k : Nat) : (c.setVstat k).sigLeft = c.sigLeft := rfl
@[simp] theorem Core.setVstat_pend (c : Core) (k : Nat) : (c.setVstat k).pend = c.pend := rfl
@[simp] theorem Core.setVstat_dbg (c : Core) (k : Nat) : (c.setVstat k).dbg = c.dbg := rfl

/-! ## setMstat -/

@[simp] theorem Core.setMstat_phys (c : Core) (k : Nat) : (c.setMstat k).phys = c.phys := rfl
@[simp] theorem Core.setMstat_pc (c : Core) (k : Nat) : (c.setMstat k).pc = c.pc := rfl
@[simp] theorem Core.setMstat_regs (c : Core) (k : Nat) : (c.setMstat k).regs = c.regs := rfl
@[simp] theorem Core.setMstat_preds (c : Core) (k : Nat) : (c.setMstat k).preds = c.preds := rfl
@[simp] theorem Core.setMstat_handles (c : Core) (k : Nat) : (c.setMstat k).handles = c.handles := rfl
@[simp] theorem Core.setMstat_queues (c : Core) (k : Nat) : (c.setMstat k).queues = c.queues := rfl
@[simp] theorem Core.setMstat_mem (c : Core) (k : Nat) : (c.setMstat k).mem = c.mem := rfl
@[simp] theorem Core.setMstat_poison (c : Core) (k : Nat) : (c.setMstat k).poison = c.poison := rfl
@[simp] theorem Core.setMstat_full (c : Core) (k : Nat) : (c.setMstat k).full = c.full := rfl
@[simp] theorem Core.setMstat_readFull (c : Core) (k : Nat) : (c.setMstat k).readFull = c.readFull := rfl
@[simp] theorem Core.setMstat_imem (c : Core) (k : Nat) : (c.setMstat k).imem = c.imem := rfl
@[simp] theorem Core.setMstat_imemPoison (c : Core) (k : Nat) : (c.setMstat k).imemPoison = c.imemPoison := rfl
@[simp] theorem Core.setMstat_pageValid (c : Core) (k : Nat) : (c.setMstat k).pageValid = c.pageValid := rfl
@[simp] theorem Core.setMstat_pageExec (c : Core) (k : Nat) : (c.setMstat k).pageExec = c.pageExec := rfl
@[simp] theorem Core.setMstat_pst (c : Core) (k : Nat) : (c.setMstat k).pst = c.pst := rfl
@[simp] theorem Core.setMstat_halted (c : Core) (k : Nat) : (c.setMstat k).halted = c.halted := rfl
@[simp] theorem Core.setMstat_iterMark (c : Core) (k : Nat) : (c.setMstat k).iterMark = c.iterMark := rfl
@[simp] theorem Core.setMstat_held (c : Core) (k : Nat) : (c.setMstat k).held = c.held := rfl
@[simp] theorem Core.setMstat_engV (c : Core) (k : Nat) : (c.setMstat k).engV = c.engV := rfl
@[simp] theorem Core.setMstat_engM (c : Core) (k : Nat) : (c.setMstat k).engM = c.engM := rfl
@[simp] theorem Core.setMstat_engL (c : Core) (k : Nat) : (c.setMstat k).engL = c.engL := rfl
@[simp] theorem Core.setMstat_engE (c : Core) (k : Nat) : (c.setMstat k).engE = c.engE := rfl
@[simp] theorem Core.setMstat_matrix (c : Core) (k : Nat) : (c.setMstat k).matrix = c.matrix := rfl
@[simp] theorem Core.setMstat_vmet (c : Core) (k : Nat) : (c.setMstat k).vmet = c.vmet := rfl
@[simp] theorem Core.setMstat_vrows (c : Core) (k : Nat) : (c.setMstat k).vrows = c.vrows := rfl
@[simp] theorem Core.setMstat_vpushed (c : Core) (k : Nat) : (c.setMstat k).vpushed = c.vpushed := rfl
@[simp] theorem Core.setMstat_lmet (c : Core) (k : Nat) : (c.setMstat k).lmet = c.lmet := rfl
@[simp] theorem Core.setMstat_xfers (c : Core) (k : Nat) : (c.setMstat k).xfers = c.xfers := rfl
@[simp] theorem Core.setMstat_faultRec (c : Core) (k : Nat) : (c.setMstat k).faultRec = c.faultRec := rfl
@[simp] theorem Core.setMstat_heldWrites (c : Core) (k : Nat) : (c.setMstat k).heldWrites = c.heldWrites := rfl
@[simp] theorem Core.setMstat_overlay (c : Core) (k : Nat) : (c.setMstat k).overlay = c.overlay := rfl
@[simp] theorem Core.setMstat_task (c : Core) (k : Nat) : (c.setMstat k).task = c.task := rfl
@[simp] theorem Core.setMstat_warm (c : Core) (k : Nat) : (c.setMstat k).warm = c.warm := rfl
@[simp] theorem Core.setMstat_saved (c : Core) (k : Nat) : (c.setMstat k).saved = c.saved := rfl
@[simp] theorem Core.setMstat_sigLeft (c : Core) (k : Nat) : (c.setMstat k).sigLeft = c.sigLeft := rfl
@[simp] theorem Core.setMstat_pend (c : Core) (k : Nat) : (c.setMstat k).pend = c.pend := rfl
@[simp] theorem Core.setMstat_dbg (c : Core) (k : Nat) : (c.setMstat k).dbg = c.dbg := rfl

/-! ## Engines -/

@[simp] theorem Core.eng_setEng (c : Core) (e : Eng) (x : Engine) : (c.setEng e x).eng e = x := by
  cases e <;> rfl
theorem Core.eng_setEng_ne (c : Core) (e f : Eng) (x : Engine) (h : f ≠ e) : (c.setEng e x).eng f = c.eng f := by
  cases e <;> cases f <;> first | rfl | exact absurd rfl h

/-! ## Cores of the device -/

@[simp] theorem State.coreAt_self (s : State) : s.coreAt s.core.phys = s.core := by simp [State.coreAt]
@[simp] theorem State.setCore_self (s : State) (c : Core) : s.setCore s.core.phys c = { s with core := c } := by
  simp [State.setCore]
@[simp] theorem State.select_self (s : State) : s.select s.core.phys = s := by simp [State.select]
@[simp] theorem State.setCore_turns (s : State) (p : Nat) (c : Core) : (s.setCore p c).turns = s.turns := by
  unfold State.setCore; split <;> rfl
@[simp] theorem State.select_turns (s : State) (p : Nat) : (s.select p).turns = s.turns := by
  unfold State.select; split <;> rfl
@[simp] theorem State.setCore_nfree (s : State) (p : Nat) (c : Core) : (s.setCore p c).nfree = s.nfree := by
  unfold State.setCore; split <;> rfl
@[simp] theorem State.select_nfree (s : State) (p : Nat) : (s.select p).nfree = s.nfree := by
  unfold State.select; split <;> rfl
@[simp] theorem State.setCore_time (s : State) (p : Nat) (c : Core) : (s.setCore p c).time = s.time := by
  unfold State.setCore; split <;> rfl
@[simp] theorem State.select_time (s : State) (p : Nat) : (s.select p).time = s.time := by
  unfold State.select; split <;> rfl
@[simp] theorem State.setCore_iris (s : State) (p : Nat) (c : Core) : (s.setCore p c).iris = s.iris := by
  unfold State.setCore; split <;> rfl
@[simp] theorem State.select_iris (s : State) (p : Nat) : (s.select p).iris = s.iris := by
  unfold State.select; split <;> rfl
@[simp] theorem State.setCore_map (s : State) (p : Nat) (c : Core) : (s.setCore p c).map = s.map := by
  unfold State.setCore; split <;> rfl
@[simp] theorem State.select_map (s : State) (p : Nat) : (s.select p).map = s.map := by
  unfold State.select; split <;> rfl
@[simp] theorem State.setCore_dist (s : State) (p : Nat) (c : Core) : (s.setCore p c).dist = s.dist := by
  unfold State.setCore; split <;> rfl
@[simp] theorem State.select_dist (s : State) (p : Nat) : (s.select p).dist = s.dist := by
  unfold State.select; split <;> rfl
@[simp] theorem State.setCore_debugUnit (s : State) (p : Nat) (c : Core) : (s.setCore p c).debugUnit = s.debugUnit := by
  unfold State.setCore; split <;> rfl
@[simp] theorem State.select_debugUnit (s : State) (p : Nat) : (s.select p).debugUnit = s.debugUnit := by
  unfold State.select; split <;> rfl
@[simp] theorem State.setCore_codecs (s : State) (p : Nat) (c : Core) : (s.setCore p c).codecs = s.codecs := by
  unfold State.setCore; split <;> rfl
@[simp] theorem State.select_codecs (s : State) (p : Nat) : (s.select p).codecs = s.codecs := by
  unfold State.select; split <;> rfl
@[simp] theorem State.setCore_ringPend (s : State) (p : Nat) (c : Core) : (s.setCore p c).ringPend = s.ringPend := by
  unfold State.setCore; split <;> rfl
@[simp] theorem State.select_ringPend (s : State) (p : Nat) : (s.select p).ringPend = s.ringPend := by
  unfold State.select; split <;> rfl
@[simp] theorem State.setCore_ports (s : State) (p : Nat) (c : Core) : (s.setCore p c).ports = s.ports := by
  unfold State.setCore; split <;> rfl
@[simp] theorem State.select_ports (s : State) (p : Nat) : (s.select p).ports = s.ports := by
  unfold State.select; split <;> rfl
@[simp] theorem State.setCore_vfBase (s : State) (p : Nat) (c : Core) : (s.setCore p c).vfBase = s.vfBase := by
  unfold State.setCore; split <;> rfl
@[simp] theorem State.select_vfBase (s : State) (p : Nat) : (s.select p).vfBase = s.vfBase := by
  unfold State.select; split <;> rfl
@[simp] theorem State.setCore_numVfs (s : State) (p : Nat) (c : Core) : (s.setCore p c).numVfs = s.numVfs := by
  unfold State.setCore; split <;> rfl
@[simp] theorem State.select_numVfs (s : State) (p : Nat) : (s.select p).numVfs = s.numVfs := by
  unfold State.select; split <;> rfl
@[simp] theorem State.setCore_msixOpen (s : State) (p : Nat) (c : Core) : (s.setCore p c).msixOpen = s.msixOpen := by
  unfold State.setCore; split <;> rfl
@[simp] theorem State.select_msixOpen (s : State) (p : Nat) : (s.select p).msixOpen = s.msixOpen := by
  unfold State.select; split <;> rfl
@[simp] theorem State.setCore_msixPend (s : State) (p : Nat) (c : Core) : (s.setCore p c).msixPend = s.msixPend := by
  unfold State.setCore; split <;> rfl
@[simp] theorem State.select_msixPend (s : State) (p : Nat) : (s.select p).msixPend = s.msixPend := by
  unfold State.select; split <;> rfl
@[simp] theorem State.setCore_peer (s : State) (p : Nat) (c : Core) : (s.setCore p c).peer = s.peer := by
  unfold State.setCore; split <;> rfl
@[simp] theorem State.select_peer (s : State) (p : Nat) : (s.select p).peer = s.peer := by
  unfold State.select; split <;> rfl
@[simp] theorem State.setCore_mgmt (s : State) (p : Nat) (c : Core) : (s.setCore p c).mgmt = s.mgmt := by
  unfold State.setCore; split <;> rfl
@[simp] theorem State.select_mgmt (s : State) (p : Nat) : (s.select p).mgmt = s.mgmt := by
  unfold State.select; split <;> rfl
@[simp] theorem State.setCore_power (s : State) (p : Nat) (c : Core) : (s.setCore p c).power = s.power := by
  unfold State.setCore; split <;> rfl
@[simp] theorem State.select_power (s : State) (p : Nat) : (s.select p).power = s.power := by
  unfold State.select; split <;> rfl
@[simp] theorem State.setCore_out (s : State) (p : Nat) (c : Core) : (s.setCore p c).out = s.out := by
  unfold State.setCore; split <;> rfl
@[simp] theorem State.select_out (s : State) (p : Nat) : (s.select p).out = s.out := by
  unfold State.select; split <;> rfl

end Sys2Proof.Machine
end

