-- ==== Sys2Proof/Laws/Ops.lean ====
section
/-! SUPPORT. What each shared operation can do, said once: retirement, trap entry, holding, the two ways an instruction
word is run, and the two ways a step of an agent is run. -/

set_option Elab.async false

namespace Sys2Proof.Machine

/-! ## Trace -/

theorem Core.flushLost_eq (c : Core) : c.flushLost =
    { c with dbg := { c.dbg with fifo := c.flushLost.dbg.fifo, dropped := c.flushLost.dbg.dropped } } := by
  unfold Core.flushLost
  split <;> rfl

/-- Tracing changes only the trace FIFO and the count of dropped records. -/
theorem Core.trace_eq (c : Core) (e : Nat) (r : BitVec 256) : c.trace e r =
    { c with dbg := { c.dbg with fifo := (c.trace e r).dbg.fifo, dropped := (c.trace e r).dbg.dropped } } := by
  unfold Core.trace
  split
  · rfl
  · have h := Core.flushLost_eq c
    simp only
    split
    · rw [h]
    · rw [h]

@[simp] theorem Core.trace_csr (c : Core) (e : Nat) (r : BitVec 256) : (c.trace e r).csr = c.csr := by
  rw [Core.trace_eq]
@[simp] theorem Core.trace_pc (c : Core) (e : Nat) (r : BitVec 256) : (c.trace e r).pc = c.pc := by
  rw [Core.trace_eq]
@[simp] theorem Core.trace_held (c : Core) (e : Nat) (r : BitVec 256) : (c.trace e r).held = c.held := by
  rw [Core.trace_eq]
@[simp] theorem Core.trace_mem (c : Core) (e : Nat) (r : BitVec 256) : (c.trace e r).mem = c.mem := by
  rw [Core.trace_eq]
@[simp] theorem Core.trace_imem (c : Core) (e : Nat) (r : BitVec 256) : (c.trace e r).imem = c.imem := by
  rw [Core.trace_eq]
@[simp] theorem Core.trace_regs (c : Core) (e : Nat) (r : BitVec 256) : (c.trace e r).regs = c.regs := by
  rw [Core.trace_eq]

/-- Closing a loop level changes only what debug keeps. -/
theorem Core.closeLevel_eq (c : Core) (n : Nat) : c.closeLevel n = { c with dbg := (c.closeLevel n).dbg } := by
  unfold Core.closeLevel
  split
  · rfl
  · rw [Core.trace_eq]

/-! ## Retirement -/

/-- Counting a retirement changes the held instruction, RETIRED, CYCLE and what debug counts. -/
theorem Core.count_eq (c : Core) (k : Nat) (u : Bool) : c.count k u =
    { c with held := none
             csr := { c.csr with retired := c.csr.retired + 1, cycle := c.csr.cycle + BitVec.ofNat 64 k }
             dbg := (c.count k u).dbg } := rfl

/-- The loop-end action changes the PC, the innermost count and depth, and what debug keeps. -/
theorem Core.loopEnd_eq (c : Core) : c.loopEnd =
    { c with pc := c.loopEnd.pc
             csr := { c.csr with lpcnt := c.loopEnd.csr.lpcnt, lpdep := c.loopEnd.csr.lpdep }
             dbg := c.loopEnd.dbg } := by
  unfold Core.loopEnd
  simp only
  split
  · rfl
  · rw [Core.closeLevel_eq]

/-- All that retirement changes in the core that an instruction leaves. -/
theorem Core.retireFrom_eq (c0 : Core) (h : Hdr) (k : Nat) (c : Core) : c0.retireFrom h k c =
    { c with pc := (c0.retireFrom h k c).pc
             held := none
             csr := { c.csr with
               retired := c.csr.retired + 1
               cycle := c.csr.cycle + BitVec.ofNat 64 k
               lpcnt := (c0.retireFrom h k c).csr.lpcnt
               lpdep := (c0.retireFrom h k c).csr.lpdep }
             dbg := (c0.retireFrom h k c).dbg } := by
  unfold Core.retireFrom
  simp only
  split
  · rw [Core.loopEnd_eq]
    rfl
  · rfl

@[simp] theorem Core.retireFrom_mem (c0 : Core) (h : Hdr) (k : Nat) (c : Core) :
    (c0.retireFrom h k c).mem = c.mem := by rw [Core.retireFrom_eq]
@[simp] theorem Core.retireFrom_imem (c0 : Core) (h : Hdr) (k : Nat) (c : Core) :
    (c0.retireFrom h k c).imem = c.imem := by rw [Core.retireFrom_eq]
@[simp] theorem Core.retireFrom_regs (c0 : Core) (h : Hdr) (k : Nat) (c : Core) :
    (c0.retireFrom h k c).regs = c.regs := by rw [Core.retireFrom_eq]
@[simp] theorem Core.retireFrom_priv (c0 : Core) (h : Hdr) (k : Nat) (c : Core) :
    (c0.retireFrom h k c).csr.priv = c.csr.priv := by rw [Core.retireFrom_eq]
@[simp] theorem Core.retireFrom_fpctl (c0 : Core) (h : Hdr) (k : Nat) (c : Core) :
    (c0.retireFrom h k c).csr.fpctl = c.csr.fpctl := by rw [Core.retireFrom_eq]

/-! ## Traps and holds -/

/-- A precise trap in user mode is entered. -/
theorem raise_user (t : Trap) (s : State) (h : s.core.csr.priv = false) :
    raise t s = { s with core := s.core.enterTrap s.det t } := by simp [raise, h]

/-- A precise trap in supervisor mode is a context fault (R198). -/
theorem raise_supervisor (t : Trap) (s : State) (h : s.core.csr.priv = true) :
    raise t s = contextFault s.core.phys t.cause (t.epc.zeroExtend 32) t.etval
      { s with core := { s.core with held := none } } := by simp [raise, h]

/-- A hold that something can end changes only the held instruction. -/
theorem holdFor_live (i : Instr) (why : HoldReason) (ws : List Wait) (s : State) :
    holdFor i why ws false s = { s with core := { s.core with held := some { instr := i, why := why, waits := ws } } } := by
  simp [holdFor]

/-! ## The two ways an instruction word is run -/

/-- A scalar word always answers a next state. -/
theorem issue_next (i : Instr) (h : Hdr) (pre : Core → Option Trap) (body : Core → Eff) (s : State) :
    ∃ t, issue i h pre body s = .next t := by
  unfold issue
  simp only
  split
  · exact ⟨_, rfl⟩
  · split
    · exact ⟨_, rfl⟩
    · split <;> exact ⟨_, rfl⟩

/-- A scalar word whose guard is false retires. -/
theorem issue_guard (i : Instr) (h : Hdr) (pre : Core → Option Trap) (body : Core → Eff) (s : State)
    (hg : s.core.guard h = false) :
    issue i h pre body s = .next { s with core := s.core.retireFrom h 1 s.core } := by simp [issue, hg]

/-- A scalar word that a check of its mode or phase refuses traps. -/
theorem issue_pre (i : Instr) (h : Hdr) (pre : Core → Option Trap) (body : Core → Eff) (s : State) (t : Trap)
    (hg : s.core.guard h = true) (hp : pre s.core = some t) :
    issue i h pre body s = .next (raise t s) := by simp [issue, hg, hp]

/-- A scalar word that goes ahead does what its body says. -/
theorem issue_body (i : Instr) (h : Hdr) (pre : Core → Option Trap) (body : Core → Eff) (s : State)
    (hg : s.core.guard h = true) (hp : pre s.core = none) (hw : waitsDone s.core i h = true) :
    issue i h pre body s = .next (settle i h (scalarWaits s.core i h) s (body s.core)) := by
  unfold waitsDone at hw
  simp [issue, hg, hp, hw]

/-- A scalar word with an unsatisfied token wait is held. -/
theorem issue_wait (i : Instr) (h : Hdr) (pre : Core → Option Trap) (body : Core → Eff) (s : State)
    (hg : s.core.guard h = true) (hp : pre s.core = none) (hw : waitsDone s.core i h = false) :
    issue i h pre body s = .next (holdFor i .tokens (scalarWaits s.core i h)
      ((scalarWaits s.core i h).any (fun w => !waitDone s.core w && s.core.stuck w.eng)) s) := by
  unfold waitsDone at hw
  simp [issue, hg, hp, hw]

/-- A scalar word without a check of its own, ready, whose body retires. -/
theorem scalar_retire (i : Instr) (h : Hdr) (body : Core → Eff) (s : State) (c : Core) (k : Nat)
    (hg : s.core.guard h = true) (hw : waitsDone s.core i h = true) (hb : body s.core = .retire c k) :
    scalar i h body s = .next { s with core := s.core.retireFrom h k c } := by
  unfold scalar
  rw [issue_body _ _ _ _ _ hg rfl hw, hb]
  rfl

/-- A scalar word without a check of its own, ready, whose body raises a trap. -/
theorem scalar_trap (i : Instr) (h : Hdr) (body : Core → Eff) (s : State) (t : Trap)
    (hg : s.core.guard h = true) (hw : waitsDone s.core i h = true) (hb : body s.core = .trap t) :
    scalar i h body s = .next (raise t s) := by
  unfold scalar
  rw [issue_body _ _ _ _ _ hg rfl hw, hb]
  rfl

/-- A core cycle of a range change that goes on (R166): the instruction stays at the front end with what it has changed. -/
theorem scalar_progress (i : Instr) (h : Hdr) (body : Core → Eff) (s : State) (c : Core) (n : Nat)
    (hg : s.core.guard h = true) (hw : waitsDone s.core i h = true) (hb : body s.core = .progress c n) :
    scalar i h body s = .next { s with core := { c with
      held := some { instr := i, why := .range, waits := scalarWaits s.core i h, done := n }
      csr := { c.csr with cycle := c.csr.cycle + 1 } } } := by
  unfold scalar
  rw [issue_body _ _ _ _ _ hg rfl hw, hb]
  rfl

/-- An engine word always answers a next state. -/
theorem dispatch_next (i : Instr) (h : Hdr) (e : Eng) (pre : Core → Option Trap) (check : Core → Dispatch) (s : State) :
    ∃ t, dispatch i h e pre check s = .next t := by
  unfold dispatch
  simp only
  split
  · exact ⟨_, rfl⟩
  · split
    · exact ⟨_, rfl⟩
    · split
      · split <;> exact ⟨_, rfl⟩
      · split <;> exact ⟨_, rfl⟩

/-- An engine word whose checks pass is queued and retires. -/
theorem dispatch_entry (i : Instr) (h : Hdr) (e : Eng) (pre : Core → Option Trap) (check : Core → Dispatch) (s : State)
    (c : Core) (x : Entry) (hg : s.core.guard h = true) (hp : pre s.core = none)
    (hr : (s.core.eng e).queue.length < engDepth e) (hc : check s.core = .entry c x) :
    dispatch i h e pre check s = .next { s with core := s.core.retireFrom h 1 ((c.enqueue e x).noteToken e) } := by
  have hn : ¬ engDepth e ≤ (s.core.eng e).queue.length := by omega
  simp [dispatch, hg, hp, hn, hc]

/-- An engine word that fails a check at dispatch traps and is not queued. -/
theorem dispatch_trap (i : Instr) (h : Hdr) (e : Eng) (pre : Core → Option Trap) (check : Core → Dispatch) (s : State)
    (t : Trap) (hg : s.core.guard h = true) (hp : pre s.core = none)
    (hr : (s.core.eng e).queue.length < engDepth e) (hc : check s.core = .trap t) :
    dispatch i h e pre check s = .next (raise t s) := by
  have hn : ¬ engDepth e ≤ (s.core.eng e).queue.length := by omega
  simp [dispatch, hg, hp, hn, hc]

/-- An engine word whose queue is full is held, or traps where its engine is frozen. -/
theorem dispatch_full (i : Instr) (h : Hdr) (e : Eng) (pre : Core → Option Trap) (check : Core → Dispatch) (s : State)
    (hg : s.core.guard h = true) (hp : pre s.core = none) (hr : engDepth e ≤ (s.core.eng e).queue.length) :
    dispatch i h e pre check s = .next (if (s.core.eng e).frozen then raise (s.core.precise 0x0A 6 0) s
      else holdFor i .room [] (s.core.stuck e) s) := by
  unfold dispatch
  simp only [hg, hp, hr, if_true, Bool.not_true, Bool.false_eq_true, if_false]
  split <;> rfl

/-! ## The two ways a step of an agent is run -/

/-- A step of core p that answers a next state. -/
theorem onCore_next (s : State) (p : Nat) (f : Core → State → Option State) (t : State) :
    onCore s p f = .next t ↔ p < coreCount ∧ t = (f (s.coreAt p) s).getD s := by
  unfold onCore
  split
  · constructor
    · intro h; cases h
    · rintro ⟨h, -⟩; omega
  · constructor
    · intro h; cases h; exact ⟨by omega, rfl⟩
    · rintro ⟨-, rfl⟩; rfl

/-- A step of core p that is due. -/
theorem onCore_due (s : State) (p : Nat) (f : Core → State → Option State) (t : State) (hp : p < coreCount)
    (hf : f (s.coreAt p) s = some t) : onCore s p f = .next t := by
  rw [onCore_next]
  exact ⟨hp, by simp [hf]⟩

/-- A step of core p that is not due changes nothing. -/
theorem onCore_idle (s : State) (p : Nat) (f : Core → State → Option State) (hp : p < coreCount)
    (hf : f (s.coreAt p) s = none) : onCore s p f = .next s := by
  rw [onCore_next]
  exact ⟨hp, by simp [hf]⟩

/-- A step of the device answers a next state. -/
theorem onDevice_next (s : State) (f : State → Option State) (t : State) :
    onDevice s f = .next t ↔ t = (f s).getD s := by
  unfold onDevice
  constructor
  · intro h; cases h; rfl
  · rintro rfl; rfl

/-! ## Engine work -/

/-- A step of engine work that has nothing to push and stops nowhere takes effect. -/
theorem Work.finish_done (w : Work) (set : Work → Core → Core) (h : w.verdict = none) :
    w.finish none set = .done (set w w.effects) := by simp [Work.finish, h]

/-- A step of engine work that pushes into a queue register with room (R36, R182). -/
theorem Work.finish_push (w : Work) (set : Work → Core → Core) (n v : Nat) (h : w.verdict = none) (hp : w.push = some v)
    (hr : ((set w w.effects).queue n).length < 8) :
    w.finish (some n) set = .done { (set w w.effects).setQueue n ((set w w.effects).queue n ++ [BitVec.ofNat 32 v]) with
      vpushed := if w.e = .V then decide (entrySteps w.x ≤ (set w w.effects).engV.mpc.toNat + 1)
        else (set w w.effects).vpushed } := by
  simp [Work.finish, h, hp, hr]

/-- A step of engine work whose queue register is full is held at it (R36). -/
theorem Work.finish_full (w : Work) (set : Work → Core → Core) (n v : Nat) (h : w.verdict = none) (hp : w.push = some v)
    (hr : ¬((set w w.effects).queue n).length < 8) : w.finish (some n) set = .full n v := by
  simp [Work.finish, h, hp, hr]

/-- Outside a core cycle a read meets the full granules as they stand (R32). -/
theorem Core.seenFull_eq (c : Core) (h : c.readFull = none) : c.seenFull = c.full := by simp [Core.seenFull, h]

/-- A step of engine work that waits. -/
theorem Work.finish_wait (w : Work) (q : Option Nat) (set : Work → Core → Core) (h : w.verdict = some .wait) :
    w.finish q set = .wait := by simp [Work.finish, h]

/-- A step of engine work that faults takes no effect. -/
theorem Work.finish_fault (w : Work) (q : Option Nat) (set : Work → Core → Core) (a b v : Nat)
    (h : w.verdict = some (.fault a b v)) : w.finish q set = .fault a b v := by simp [Work.finish, h]

end Sys2Proof.Machine
end

