-- ==== Sys2Proof/Laws/Keeps.lean ====
section
/-! SUPPORT. The memories keep their canonical form under each shared operation on the state. -/

set_option Elab.async false

namespace Sys2Proof.Machine

/-! ## Lists by key -/

/-- A value of a list after a put is the new one or an old one. -/
theorem mem_assocPut {α : Type} {l : List (Nat × α)} {a : Nat} {v : α} {p : Nat × α} (h : p ∈ assocPut l a v) :
    p = (a, v) ∨ p ∈ l := by
  induction l with
  | nil => simpa [assocPut] using h
  | cons q t ih =>
    obtain ⟨k, x⟩ := q
    rw [assocPut] at h
    split at h
    · simpa using h
    · split at h
      · rcases List.mem_cons.mp h with rfl | h
        · exact .inl rfl
        · exact .inr (List.mem_cons_of_mem _ h)
      · rcases List.mem_cons.mp h with rfl | h
        · exact .inr (by simp)
        · rcases ih h with h | h
          · exact .inl h
          · exact .inr (List.mem_cons_of_mem _ h)

/-- A value found by key stands in the list. -/
theorem mem_of_assocGet {α : Type} {l : List (Nat × α)} {a : Nat} {v : α} (h : assocGet l a = some v) :
    (a, v) ∈ l := by
  induction l with
  | nil => simp [assocGet] at h
  | cons q t ih =>
    obtain ⟨k, x⟩ := q
    rw [assocGet] at h
    split at h
    · next e => cases h; subst e; simp
    · exact List.mem_cons_of_mem _ (ih h)

/-- A fold keeps what each of its steps keeps. -/
theorem foldl_keeps {α β : Type} (P : α → Prop) (f : α → β → α) (l : List β) (hf : ∀ a b, P a → P (f a b)) :
    ∀ a, P a → P (l.foldl f a) := by
  induction l with
  | nil => exact fun _ h => h
  | cons b t ih => exact fun a h => ih _ (hf a b h)

/-! ## The form -/

/-- The memories of the device, one by one. -/
theorem State.memoriesWf_iff (s : State) : s.memoriesWf = true ↔
    s.core.memoriesWf = true ∧ (∀ p ∈ s.others, p.2.memoriesWf = true) ∧ memWf s.map.gddr = true ∧
      memWf s.map.host = true ∧ memWf s.map.staging = true := by
  simp [State.memoriesWf, and_assoc]

/-- The memories of a core, one by one. -/
theorem Core.memoriesWf_iff (c : Core) : c.memoriesWf = true ↔ memWf c.mem = true ∧ memWf c.imem = true := by
  simp [Core.memoriesWf]

/-- A core of which both memories stand keeps the form. -/
theorem Core.memoriesWf_of_eq {c d : Core} (hm : d.mem = c.mem) (hi : d.imem = c.imem) (h : c.memoriesWf = true) :
    d.memoriesWf = true := by
  simpa [Core.memoriesWf, hm, hi] using h

/-- A state of which the cores and the memories of the ports stand keeps the form. -/
theorem State.memoriesWf_of_eq {s t : State} (hc : t.core = s.core) (ho : t.others = s.others)
    (hg : t.map.gddr = s.map.gddr) (hh : t.map.host = s.map.host) (hs : t.map.staging = s.map.staging)
    (h : s.memoriesWf = true) : t.memoriesWf = true := by
  simpa [State.memoriesWf, hc, ho, hg, hh, hs] using h

theorem Core.reset_memoriesWf (p : Nat) : (Core.reset p).memoriesWf = true := by
  rw [Core.memoriesWf_iff]
  exact ⟨rfl, rfl⟩

/-! ## Cores of the device -/

theorem State.coreAt_memoriesWf (s : State) (p : Nat) (h : s.memoriesWf = true) : (s.coreAt p).memoriesWf = true := by
  obtain ⟨hc, ho, -⟩ := s.memoriesWf_iff.mp h
  rw [State.coreAt]
  split
  · exact hc
  · cases e : assocGet s.others p with
    | none => exact Core.reset_memoriesWf p
    | some c => exact ho _ (mem_of_assocGet e)

theorem State.setCore_memoriesWf (s : State) (p : Nat) (c : Core) (h : s.memoriesWf = true)
    (hc : c.memoriesWf = true) : (s.setCore p c).memoriesWf = true := by
  obtain ⟨h1, h2, h3⟩ := s.memoriesWf_iff.mp h
  rw [State.setCore]
  split
  · exact (State.memoriesWf_iff _).mpr ⟨hc, h2, h3⟩
  · refine (State.memoriesWf_iff _).mpr ⟨h1, fun q hq => ?_, h3⟩
    rcases mem_assocPut hq with rfl | hq
    · exact hc
    · exact h2 q hq

theorem State.onCoreAt_memoriesWf (s : State) (p : Nat) (f : Core → Core) (h : s.memoriesWf = true)
    (hf : ∀ c : Core, c.memoriesWf = true → (f c).memoriesWf = true) : (s.onCoreAt p f).memoriesWf = true :=
  s.setCore_memoriesWf p _ h (hf _ (s.coreAt_memoriesWf p h))

theorem State.eachCore_memoriesWf (s : State) (ps : List Nat) (f : Core → Core) (h : s.memoriesWf = true)
    (hf : ∀ c : Core, c.memoriesWf = true → (f c).memoriesWf = true) : (s.eachCore ps f).memoriesWf = true :=
  foldl_keeps (fun s : State => s.memoriesWf = true) _ ps (fun s p h => s.onCoreAt_memoriesWf p f h hf) s h

theorem State.mapCores_memoriesWf (s : State) (f : Core → Core) (h : s.memoriesWf = true)
    (hf : ∀ c : Core, c.memoriesWf = true → (f c).memoriesWf = true) : (s.mapCores f).memoriesWf = true := by
  obtain ⟨h1, h2, h3⟩ := s.memoriesWf_iff.mp h
  refine (State.memoriesWf_iff _).mpr ⟨hf _ h1, fun p hp => ?_, h3⟩
  obtain ⟨q, hq, rfl⟩ := List.mem_map.mp hp
  exact hf _ (h2 q hq)

theorem State.select_memoriesWf (s : State) (p : Nat) (h : s.memoriesWf = true) : (s.select p).memoriesWf = true := by
  obtain ⟨h1, h2, h3⟩ := s.memoriesWf_iff.mp h
  rw [State.select]
  split
  · exact h
  · refine (State.memoriesWf_iff _).mpr ⟨s.coreAt_memoriesWf p h, fun q hq => ?_, h3⟩
    rcases mem_assocPut (List.mem_of_mem_filter hq) with rfl | hq
    · exact h1
    · exact h2 q hq

/-! ## The two ways a step of an agent is run -/

/-- A step of core p keeps the memories where its function does. -/
theorem onCore_memoriesWf {s t : State} {p : Nat} {f : Core → State → Option State} (h : s.memoriesWf = true)
    (hf : ∀ u, f (s.coreAt p) s = some u → u.memoriesWf = true) (hn : onCore s p f = .next t) :
    t.memoriesWf = true := by
  obtain ⟨-, rfl⟩ := (onCore_next s p f t).mp hn
  cases e : f (s.coreAt p) s with
  | none => exact h
  | some u => exact hf u e

/-- A step of the device keeps the memories where its function does. -/
theorem onDevice_memoriesWf {s t : State} {f : State → Option State} (h : s.memoriesWf = true)
    (hf : ∀ u, f s = some u → u.memoriesWf = true) (hn : onDevice s f = .next t) : t.memoriesWf = true := by
  obtain rfl := (onDevice_next s f t).mp hn
  cases e : f s with
  | none => exact h
  | some u => exact hf u e

/-! ## Memories of the device -/

theorem State.gddrStore_memoriesWf (s : State) (a : Nat) (bs : List Byte) (h : s.memoriesWf = true) :
    (s.gddrStore a bs).memoriesWf = true := by
  obtain ⟨h1, h2, h3, h4, h5⟩ := s.memoriesWf_iff.mp h
  exact (State.memoriesWf_iff _).mpr ⟨h1, h2, s.gddrStore_memWf a bs h3, h4, h5⟩

theorem State.hostStore_memoriesWf (s : State) (a : Nat) (bs : List Byte) (h : s.memoriesWf = true) :
    (s.hostStore a bs).memoriesWf = true := by
  obtain ⟨h1, h2, h3, h4, h5⟩ := s.memoriesWf_iff.mp h
  exact (State.memoriesWf_iff _).mpr ⟨h1, h2, h3, s.hostStore_memWf a bs h4, h5⟩

theorem State.physStore_memoriesWf (s : State) (host : Bool) (a : Nat) (bs : List Byte) (h : s.memoriesWf = true) :
    (s.physStore host a bs).memoriesWf = true := by
  rw [State.physStore]
  split
  · exact s.hostStore_memoriesWf a bs h
  · exact s.gddrStore_memoriesWf a bs h

theorem State.stgPut_memoriesWf (s : State) (g : Nat) (bs : List Byte) (bad : List Nat) (h : s.memoriesWf = true) :
    (s.stgPut g bs bad).memoriesWf = true := by
  obtain ⟨h1, h2, h3, h4, h5⟩ := s.memoriesWf_iff.mp h
  exact (State.memoriesWf_iff _).mpr ⟨h1, h2, h3, h4, s.stgPut_memWf g bs bad h5⟩

/-- A store of a core keeps its memories. -/
theorem Core.storeLocal_memoriesWf (c : Core) (a n v : Nat) (h : c.memoriesWf = true) :
    (c.storeLocal a n v).memoriesWf = true := by
  obtain ⟨hm, hi⟩ := c.memoriesWf_iff.mp h
  exact (Core.memoriesWf_iff _).mpr ⟨c.storeLocal_memWf a n v hm, hi⟩

theorem memWf_writeAt (m : Mem) (as : List Nat) (v : Nat) (hm : memWf m = true) : memWf (writeAt m as v) = true := by
  induction as generalizing m v with
  | nil => exact hm
  | cons a t ih => exact ih _ _ (memWf_memWrite a _ hm)

theorem memWf_writeElem (m : Mem) (h : HandleBits) (n v : Nat) (hm : memWf m = true) :
    memWf (writeElem m h n v) = true := memWf_writeAt _ _ _ hm

/-- The writes of a step keep the form, element by element. -/
theorem WSet.put_memWf (w : WSet) (h : HandleBits) (n v : Nat) (hm : memWf w.mem = true) :
    memWf (w.put h n v).mem = true := memWf_writeElem _ h n v hm

theorem WSet.putBytes_memWf (w : WSet) (a k v : Nat) (hm : memWf w.mem = true) :
    memWf (w.putBytes a k v).mem = true := memWf_writeLE _ _ _ hm

/-- The written bits laid on a memory keep its form. -/
theorem WSet.laidOn_memWf (w : WSet) (m : Mem) (hm : memWf m = true) : memWf (w.laidOn m) = true :=
  foldl_keeps (fun m : Mem => memWf m = true) _ w.mask (fun _ _ h => memWf_memWrite _ _ h) m hm

/-- Making the writes of a step leaves the memory given. -/
theorem WSet.apply_memoriesWf (w : WSet) (m : Mem) (c : Core) (hm : memWf m = true) (h : c.memoriesWf = true) :
    (w.apply m c).memoriesWf = true :=
  (Core.memoriesWf_iff _).mpr ⟨hm, (c.memoriesWf_iff.mp h).2⟩

/-- Losses at the banks change only what debug keeps. -/
theorem WSet.charge_memoriesWf (w : WSet) (e : Eng) (c : Core) (h : c.memoriesWf = true) :
    (w.charge e c).memoriesWf = true :=
  foldl_keeps (fun c : Core => c.memoriesWf = true) (fun c k => c.lose (k / 2) (writeRequester e) 2)
    (w.words.filter (fun k => decide (k < 0x10000) && !w.whole k)) (fun _ _ h => h) c h

/-- The effects of a step keep the form where what it gathered and the core that it changes have it. -/
theorem Work.effects_memoriesWf (w : Work) (hm : memWf w.ws.mem = true) (h : w.on.memoriesWf = true) :
    w.effects.memoriesWf = true := by
  apply WSet.charge_memoriesWf
  split
  · exact w.ws.apply_memoriesWf _ _ hm h
  · exact w.ws.apply_memoriesWf _ _ (w.ws.laidOn_memWf _ (w.on.memoriesWf_iff.mp h).1) h

/-! ## Operations that touch no memory -/

theorem State.takeFree_memoriesWf (s : State) (h : s.memoriesWf = true) : s.takeFree.memoriesWf = true := h

theorem State.dropWaiting_memoriesWf (s : State) (p : Nat) (which : Contribution → Bool) (h : s.memoriesWf = true) :
    (s.dropWaiting p which).memoriesWf = true := h

theorem State.stgMet_memoriesWf (s : State) (o n : Nat) (h : s.memoriesWf = true) : (s.stgMet o n).memoriesWf = true := h

theorem State.emit_memoriesWf (s : State) (o : Output) (h : s.memoriesWf = true) : (s.emit o).memoriesWf = true := h

theorem State.sendMsix_memoriesWf (s : State) (v : Nat) (h : s.memoriesWf = true) :
    (s.sendMsix v).memoriesWf = true := by
  simp only [State.sendMsix]
  split
  · exact h
  · split <;> exact h

theorem State.setHart_memoriesWf (s : State) (k : Nat) (x : Hart) (h : s.memoriesWf = true) :
    (s.setHart k x).memoriesWf = true := h

theorem State.post_memoriesWf (s : State) (k : Nat) (e : BitVec 128) (h : s.memoriesWf = true) :
    (s.post k e).memoriesWf = true := by
  simp only [State.post]
  split <;> exact h

theorem State.notify_memoriesWf (s : State) (k kind : Nat) (ctx ch a b c : Option Nat) (h : s.memoriesWf = true) :
    (s.notify k kind ctx ch a b c).memoriesWf = true := State.post_memoriesWf _ _ _ h

theorem State.slotUpdate_memoriesWf (s : State) (k v : Nat) (h : s.memoriesWf = true) :
    (s.slotUpdate k v).memoriesWf = true := h

theorem State.setMirror_memoriesWf (s : State) (l v : Nat) (h : s.memoriesWf = true) :
    (s.putMirror l v).memoriesWf = true := h

theorem Core.freeze_memoriesWf (c : Core) (e : Eng) (code sub : Nat) (v : Word) (h : c.memoriesWf = true) :
    (c.freeze e code sub v).memoriesWf = true := by
  cases e <;> exact h

theorem Core.leave_memoriesWf (c : Core) (h : c.memoriesWf = true) : c.leave.memoriesWf = true := h

theorem State.releaseMirror_memoriesWf (s : State) (p : Nat) (h : s.memoriesWf = true) :
    (s.releaseMirror p).memoriesWf = true :=
  foldl_keeps (fun u : State => u.memoriesWf = true) (fun u (w : Nat × Word) => u.putMirror w.1 w.2.toNat)
    (s.dist.heldMirror.filter (fun w => s.mirrorEntry w.1 % 2 ^ 11 == p)) (fun _ _ hu => hu) s h

theorem State.makeAbsent_memoriesWf (s : State) (p : Nat) (h : s.memoriesWf = true) :
    (s.makeAbsent p).memoriesWf = true := by
  have hq : (s.onCoreAt p Core.leave).memoriesWf = true := s.onCoreAt_memoriesWf p Core.leave h Core.leave_memoriesWf
  exact State.releaseMirror_memoriesWf _ p hq

end Sys2Proof.Machine
end

