-- ==== Sys2Proof/Laws/Units.lean ====
section
/-! SUPPORT. The ways a happening of a unit is run: a request to a block of registers, a message of the peer reduction
unit, a command of the mailbox and a request through DOE. -/

set_option Elab.async false

namespace Sys2Proof.Machine

/-- A request to a block that the stage provides is performed. -/
theorem State.request_provided (s : State) (n : Nat) (f : State → State) (h : s.inStage n = true) :
    s.request n f = .next (f s) := by
  simp [State.request, h]

/-- A request to a block that the stage does not provide is an Unsupported Request. -/
theorem State.request_refused (s : State) (n : Nat) (f : State → State) (h : s.inStage n = false) :
    s.request n f = .next s.unsupported := by
  simp [State.request, h]

/-- A request answers a next state, and keeps what its work and a completion keep. -/
theorem State.request_memoriesWf {s t : State} {n : Nat} {f : State → State} (h : s.memoriesWf = true)
    (hf : (f s).memoriesWf = true) (hn : s.request n f = .next t) : t.memoriesWf = true := by
  cases e : s.inStage n
  · rw [s.request_refused n f e] at hn
    cases hn
    exact s.emit_memoriesWf _ h
  · rw [s.request_provided n f e] at hn
    cases hn
    exact hf

/-- A message of its kind, of the form of R442, is taken from stage 1 on. -/
theorem State.onMessage_taken (s : State) (k : Nat) (m : PeerMsg) (f : State → State) (h : s.inStage 1 = true)
    (hk : msgKind m = k) (hd : (msgData m).length ≤ 512) : s.onMessage k m f = .next (f s) := by
  simp [State.onMessage, h, hk, hd]

/-- A message of another kind changes nothing. -/
theorem State.onMessage_other (s : State) (k : Nat) (m : PeerMsg) (f : State → State) (hk : msgKind m ≠ k) :
    s.onMessage k m f = .next s := by
  simp [State.onMessage, hk]

/-- The mailbox command under way is carried out. -/
theorem onCommand_due (s : State) (k : Nat) (f : State → State) (h : s.mgmt.mbBusy = some k) :
    onCommand s k f = .next (f s) := by
  simp [onCommand, onDevice, h]

/-- A command that is not under way changes nothing. -/
theorem onCommand_idle (s : State) (k : Nat) (f : State → State) (h : s.mgmt.mbBusy ≠ some k) :
    onCommand s k f = .next s := by
  simp [onCommand, onDevice, h]

/-- The device answers through DOE outside reset. -/
theorem State.doe_live (s : State) (f : State → State) (h : s.mgmt.inReset = false) : s.doe f = .next (f s) := by
  simp [State.doe, h]

end Sys2Proof.Machine
end

