-- ==== Sys2Proof/Tests/Slice0.lean ====
section
/-! SUPPORT. The model's own tests: ill-formed terms that the well-formedness check refuses, words from the encoding
tables, single steps with results worked out from the rules, and for every statement with hypotheses states and operands
that meet them. -/

set_option Elab.async false

namespace Sys2Proof.Tests
open Sys2Proof.Machine Sys2Proof.Claims

/-! ## Small states -/

/-- A header without prefixes and with the guard p0. -/
def noHdr : Hdr := { tok := none, limm := none, g := 0 }

/-- The device after reset with a core that executes. -/
def devCore (c : Core) : State := { State.reset with core := c }

/-- Core 0 in COMPUTE. -/
def computing : Core := { Core.reset 0 with pst := .compute }

/-- Core 0 in an exchange block. -/
def exchanging : Core := { Core.reset 0 with pst := .exchange, csr := { Csrs.reset with phase := 1 } }

/-- A queue entry with its handles and numbers. -/
def entryWith (i : Instr) (hs : List HandleBits) (xs : List Nat) : Entry :=
  { instr := i, handles := hs, scalars := xs, waits := [], fpctl := 0, seed := 0, accown := 0, priv := false, xid := 0
    stage := .queued, phase := 0 }

/-- An engine with a queue. -/
def engWith (q : List Entry) : Engine := { Engine.idle with queue := q }

/-- A handle of d0 elements of a format at a base. -/
def rowHandle (fmt base d0 : Nat) : HandleBits := BitVec.ofNat 256 (base + fmt * 2 ^ 20 + d0 * 2 ^ 24 + 2 ^ 40 + 2 ^ 56)

/-- A begun transfer with its pieces. -/
def begunWith (x : Entry) (ps : List Nat) : Xfer := Xfer.mk { x with stage := .begun } ps [] [] [] false false [] false 0 false

/-- A memory with a number of n bytes at an address. -/
def memWith (a n v : Nat) : Mem := writeLE [] a n v

/-- An exchanging core with entries in its E queue. -/
def exQueue (q : List Entry) : State := devCore { exchanging with engE := engWith q }

/-- An exchanging core with begun transfers. -/
def exXfers (l : List Xfer) : State :=
  devCore { exchanging with engE := engWith (l.map (·.entry)), xfers := l }

/-- The device with its map units changed. -/
def devMap (m : MapUnits) : State := { State.reset with map := m }

/-- The device with its Iris changed, and core 0. -/
def devIris (i : Iris) (c : Core) : State := { devCore c with iris := i }

/-- The device with its distributor changed. -/
def devDist (d : Distributor) : State := { State.reset with dist := d }

/-- The device with n stages of its start done. -/
def upTo (n : Nat) (s : State) : State := { s with mgmt := { Mgmt.reset with inReset := false, stage := n } }

/-- The device with another core beside the current one. -/
def beside (p : Nat) (c : Core) (s : State) : State := { s with others := [(p, c)] }

/-- The running gang of cores 0 and 1 in context 1. -/
def gangOfTwo : Gang :=
  { origin := 0, size := 2, ctx := 1, queue := 0, ring := 0, key := 0, task := 0, energy := 0
    nopre := false, flagged := false, members := [0, 1], live := [0, 1], ended := [], preempted := false, discarded := false }

/-- A TLB entry of a unit for the 64 KiB from va on, with a leaf. -/
def tlbEntry (u asid va leaf : Nat) : TlbEntry :=
  { unit := u, asid := asid, va := va, size := 0x10000, leafAddr := 0, leaf := leaf, shoff := 0, count := 0, anchor := false }

/-- A drain of one granule at 0x1000 of device memory. -/
def drainOne : Drain :=
  { core := 0, chan := 0, id := 0, ctx := 0, phase := 1, slot := 0
    pages := [{ off := 0, len := 16, va := 0, res := .ok 0x1000 false 0 }], left := [0], bad := [] }

/-- A context that exists permits debug. -/
def liveContexts : Vector (BitVec 128) 64 := (Vector.replicate 64 0).set 1 5

/-- A task of context 1 on a core. -/
def taskOne : TaskFacts := { origin := 0, ctx := 1, endpc := 0x100, preempting := false }

/-- Core 0 in COMPUTE with registers set. -/
def coreWith (l : List (Nat × Word)) : Core := l.foldl (fun c p => c.setReg p.1 p.2) computing

/-- The state that an instruction leaves. -/
def ran (i : Instr) (s : State) : Option State :=
  match exec i s with
  | .next t => some t
  | _ => none

/-- What register n holds after an instruction on a core with registers set. -/
def regAfter (i : Instr) (l : List (Nat × Word)) (n : Nat) : Option Word :=
  (ran i (devCore (coreWith l))).map (fun t => t.core.reg n)

/-- A header with a guard. -/
def guarded (g : BitVec 3) : Hdr := { tok := none, limm := none, g := g }

/-- A header with a LIMM. -/
def limmed (v : BitVec 28) : Hdr := { tok := none, limm := some v, g := 0 }

/-! ## Well-formedness: each check refuses a term -/

/-- R76: SHL takes no LIMM. -/
theorem wf_refuses_limm : (Instr.shl (limmed 1) 1 2 3).wf = false := by decide
/-- R292: XPF needs its LIMM. -/
theorem wf_refuses_missing_limm : (Instr.xpf noHdr 5 0).wf = false := by decide
/-- R75: the LIMM of LOOPI has 22 bits. -/
theorem wf_refuses_wide_count : (Instr.loopi (limmed 0x400000) 1 2).wf = false := by decide
/-- R307: XARM with a LIMM is the immediate form. -/
theorem wf_refuses_bare_xarmImm : (Instr.xarmImm noHdr 2).wf = false := by decide
/-- R77: distance 0x7F with an engine code. -/
theorem wf_refuses_token : (Instr.nop { tok := some ⟨0x0FF, 0x07F, 0x07F⟩, limm := none, g := 0 }).wf = false := by decide
/-- R70: SYNC carries p0 only. -/
theorem wf_refuses_guard : (Instr.sync (guarded 1)).wf = false := by decide
/-- R83: a handle beside a broadcast scalar. -/
theorem wf_refuses_both : (Instr.vadd noHdr 1 2 3 4).wf = false := by decide
/-- R15: a pair that starts at an odd register. -/
theorem wf_refuses_group : (Instr.add noHdr 1 5 6 8).wf = false := by decide
/-- R45: CSR index 0x006 is not listed. -/
theorem wf_refuses_csr : (Instr.csrr noHdr 0 4 6).wf = false := by decide
/-- R66: the word 0x00000000. -/
theorem wf_refuses_zero : (Instr.add noHdr 0 0 0 0).wf = false := by decide

/-! ## Words of the encoding tables -/

/-- R72: ADD s4.d, s6.d, s8.d. -/
theorem word_add : decodeList [0x00220C40] = .ok (.add noHdr 1 4 6 8) := by decide +kernel
/-- R72: the same word with RD = 5 is ILLEGAL with SUB 3. -/
theorem word_add_odd : (match decodeList [0x00228C40] with
    | .error r => r.sub == 3
    | .ok _ => false) = true := by decide +kernel
/-- R75: MOVI s5, 0x12345678. -/
theorem word_movi : decodeList [0x70091A2B, 0x271403C0] = .ok (.movi (limmed 0x91A2B) 5 0x78) := by decide +kernel
/-- R178: NOP :: m0. -/
theorem word_nop : decodeList [0x6401FCFE, 0x58000000] =
    .ok (.nop { tok := some ⟨0x080, 0x07F, 0x07F⟩, limm := none, g := 0 }) := by decide +kernel
/-- R187: LEND.V a3 :: m0. -/
theorem word_lend : decodeList [0x6401FCFE, 0x58A00018] =
    .ok (.lendV { tok := some ⟨0x080, 0x07F, 0x07F⟩, limm := none, g := 0 } 3) := by decide +kernel
/-- R204: VADD h5, h4, s9. -/
theorem word_vadd : decodeList [0x80150090] = .ok (.vadd noHdr 5 4 0 9) := by decide +kernel
/-- R174: CLZ s8, s10 and BILV.3 s5, s3, s4. -/
theorem word_bits : decodeList [0x14041400] = .ok (.clz noHdr 8 10) ∧
    decodeList [0x16228620] = .ok (.bilv3 noHdr 5 3 4) := by decide +kernel
/-- R94: MWL h1, MMSZ h2, 0, 1, 0, MSTAT h, 1 and VPERMB h4, h3, h1. -/
theorem word_matrix : decodeList [0xA0880000] = .ok (.mwl noHdr 1) ∧
    decodeList [0xA2101000] = .ok (.mmsz noHdr 2 0 1 0) ∧
    decodeList [0xA5000008] = .ok (.mstat noHdr 1) ∧
    decodeList [0x8B10C400] = .ok (.vpermb noHdr 4 3 1) := by decide +kernel
/-- R95, R96: local copies, transfers and exchange words of the programs in the spec. -/
theorem word_engines : decodeList [0xC0802404] = .ok (.xfill (guarded 4) 0 0x24) ∧
    decodeList [0xC4011401] = .ok (.xput (guarded 1) 4 10 0 0) ∧
    decodeList [0x70000100, 0xC8440002] = .ok (.xarmImm { tok := none, limm := some 0x100, g := 2 } 1) ∧
    decodeList [0xC8C00000] = .ok (.xfence noHdr 0) := by decide +kernel
/-- R96: XPF with its LIMM, XLDG and XATM on device memory. -/
theorem word_transfers : decodeList [0x70002340, 0xC4801800] = .ok (.xpf (limmed 0x2340) 6 0) ∧
    decodeList [0xC5481401] = .ok (.xldg (guarded 1) 2 10 0 0) ∧
    decodeList [0xC6551448] = .ok (.xatmDev noHdr 5 4 10 1 1) := by decide +kernel
/-- R67: the first step after reset runs the word placed at the PC. -/
theorem step_runs_movi : (match step (State.reset.withFetchWord 32 0x27280000) with
    | .next t => t.core.reg 10 == 0 && t.core.pc == 4 && t.core.csr.retired == 1
    | _ => false) = true := by decide +kernel

/-! ## Single steps, with results from the examples and rules of spec/ -/

/-- R145: 2 - 5. -/
theorem test_sub : regAfter (.sub noHdr 0 3 4 5) [(4, 2), (5, 5)] 3 = some 0xFFFFFFFD := by decide +kernel
/-- R145: ROT by 4. -/
theorem test_rot : regAfter (.rot noHdr 3 4 5) [(4, 0x12345678), (5, 4)] 3 = some 0x81234567 := by decide +kernel
/-- R145: the carry of a 64-bit sum goes into the second register; the group of s0 discards its low word. -/
theorem test_add_pair : regAfter (.add noHdr 1 6 4 4) [(4, 0x80000000), (5, 1)] 7 = some 3 := by decide +kernel
theorem test_add_zero : regAfter (.add noHdr 1 0 4 4) [(4, 0x80000000), (5, 1)] 1 = some 3 := by decide +kernel
/-- R145: SRA copies the sign; SHR does not. -/
theorem test_sra : regAfter (.sra noHdr 3 4 5) [(4, 0x80000000), (5, 0x21)] 3 = some 0xC0000000 := by decide +kernel
theorem test_shr : regAfter (.shr noHdr 3 4 5) [(4, 0x80000000), (5, 0x21)] 3 = some 0x40000000 := by decide +kernel
/-- R145: MIN is signed, MINU is not. -/
theorem test_min : regAfter (.min noHdr 3 4 5) [(4, 0xFFFFFFFF), (5, 1)] 3 = some 0xFFFFFFFF := by decide +kernel
theorem test_minu : regAfter (.minu noHdr 3 4 5) [(4, 0xFFFFFFFF), (5, 1)] 3 = some 1 := by decide +kernel
/-- R148: the high words of -1 times 2. -/
theorem test_mulh : regAfter (.mulh noHdr 3 4 5) [(4, 0xFFFFFFFF), (5, 2)] 3 = some 0xFFFFFFFF := by decide +kernel
theorem test_mulhu : regAfter (.mulhu noHdr 3 4 5) [(4, 0xFFFFFFFF), (5, 2)] 3 = some 1 := by decide +kernel
/-- R149: -7 by 2, a zero divisor, and the overflow. -/
theorem test_div : regAfter (.div noHdr 3 4 5) [(4, 0xFFFFFFF9), (5, 2)] 3 = some 0xFFFFFFFD := by decide +kernel
theorem test_div_overflow : regAfter (.div noHdr 3 4 5) [(4, 0x80000000), (5, 0xFFFFFFFF)] 3 = some 0x80000000 := by
  decide +kernel
theorem test_rem : regAfter (.rem noHdr 3 4 5) [(4, 0xFFFFFFF9), (5, 2)] 3 = some 0xFFFFFFFF := by decide +kernel
theorem test_rem_zero : regAfter (.rem noHdr 3 4 5) [(4, 9)] 3 = some 9 := by decide +kernel
/-- R151, the example of Morton codes: x = 5, y = 3, z = 6. -/
theorem test_bilv : regAfter (.bilv3 noHdr 5 3 4) [(3, 5), (4, 0x60003)] 5 = some 0x173 := by decide +kernel
theorem test_bdlv : regAfter (.bdlv3 noHdr 6 5 7) [(5, 0x173), (7, 2)] 6 = some 6 := by decide +kernel
/-- R150: the common prefix of the example, and a zero. -/
theorem test_clz : regAfter (.clz noHdr 8 10) [(10, 0x16)] 8 = some 27 := by decide +kernel
theorem test_clz_zero : regAfter (.clz noHdr 8 10) [] 8 = some 32 := by decide +kernel
/-- R152: a field that runs past bit 31. -/
theorem test_bfx : regAfter (.bfx noHdr 3 4 5) [(4, 0xF0000000), (5, 28 + 7 * 32)] 3 = some 0xF := by decide +kernel
theorem test_bfi : regAfter (.bfi noHdr 3 4 5) [(3, 0xFFFFFFFF), (4, 0), (5, 28 + 7 * 32)] 3 = some 0x0FFFFFFF := by
  decide +kernel
/-- R155: -2.6875 to an integer under RNE, and an infinity. -/
theorem test_fcvt : regAfter (.fcvtIF noHdr 3 4) [(4, 0xC02C0000)] 3 = some 0xFFFFFFFD := by decide +kernel
theorem test_fcvt_inf : regAfter (.fcvtIF noHdr 3 4) [(4, 0x7F800000)] 3 = some 0x7FFFFFFF := by decide +kernel
/-- R153: 1 + 1, and the NaN of infinity minus infinity. -/
theorem test_fadd : regAfter (.fadd noHdr 3 4 4) [(4, 0x3F800000)] 3 = some 0x40000000 := by decide +kernel
theorem test_fadd_inf : regAfter (.fadd noHdr 3 4 5) [(4, 0x7F800000), (5, 0xFF800000)] 3 = some 0x7FC00000 := by
  decide +kernel
/-- R153: FMA reads rd: 2 times 3 plus 1. -/
theorem test_fma : regAfter (.fma noHdr 3 4 5) [(3, 0x3F800000), (4, 0x40000000), (5, 0x40400000)] 3 =
    some 0x40E00000 := by decide +kernel
/-- R154: -0 is below +0. -/
theorem test_fmin : regAfter (.fmin noHdr 3 4 5) [(5, 0x80000000)] 3 = some 0x80000000 := by decide +kernel
theorem test_fmax : regAfter (.fmax noHdr 3 4 5) [(4, 0x7FC00000), (5, 0x3F800000)] 3 = some 0x3F800000 := by
  decide +kernel
/-- R159: a cell that is its own guard. -/
theorem test_cmpi_guard : ((ran (.cmpiEq (guarded 3) 3 4 0) (devCore ((coreWith [(4, 5)]).setPred 3 true))).map
    (fun t => t.core.pred 3)) = some false := by decide +kernel
theorem test_cmpi_false : ((ran (.cmpiEq (guarded 3) 3 4 0) (devCore (coreWith [(4, 0)]))).map
    (fun t => t.core.pred 3)) = some false := by decide +kernel
/-- R146: LT compares signed. -/
theorem test_cmp : ((ran (.cmpLt noHdr 0 3 4 5) (devCore (coreWith [(4, 0xFFFFFFFF), (5, 1)]))).map
    (fun t => t.core.pred 3)) = some true := by decide +kernel
/-- R157: MOVI with a LIMM. -/
theorem test_movi : regAfter (.movi (limmed 0x91A2B) 5 0x78) [] 5 = some 0x12345678 := by decide +kernel
/-- R164: the last word of the window in supervisor mode, and the bound. -/
theorem test_ldp : ((ran (.ldp noHdr 1 4 5 0) (devCore { coreWith [(5, 4088 + 0)] with
      csr := { Csrs.reset with priv := true }, mem := writeLE [] 0xA0FF8 8 0x900000008 })).map
    (fun t => (t.core.reg 4, t.core.reg 5, t.core.csr.pwoob))) = some (8, 9, false) := by decide +kernel
theorem test_ldp_bound : ((ran (.ldp noHdr 2 4 0 0) (devCore { computing with
      csr := { Csrs.reset with pwin := 8 }, mem := writeLE [] 0xA0000 12 0xAAAAAAAA0000000200000001 })).map
    (fun t => (t.core.reg 4, t.core.reg 5, t.core.reg 6, t.core.csr.pwoob))) = some (1, 2, 0, true) := by decide +kernel
/-- R161: LD.C leaves its granule empty. -/
theorem test_ldc : ((ran (.ldC noHdr 1 10 12 2) (devCore { coreWith [(12, 0x100)] with
      mem := writeLE [] 0x110 8 0x0000000700000006, full := [0x11] })).map
    (fun t => (t.core.reg 10, t.core.reg 11, t.core.full))) = some (6, 7, []) := by decide +kernel
/-- R161: in compute a LD.W of an empty granule that nothing writes raises FEWAIT. -/
theorem test_ldw_fewait : ((ran (.ldW noHdr 0 10 12 0) (devCore (coreWith [(12, 0x104)]))).map
    (fun t => (t.core.csr.cause, t.core.csr.etval, t.core.pc))) = some (7, 0x100, 0xF100) := by decide +kernel
/-- R162: a store fills its granule; its bytes are little-endian (R4). -/
theorem test_st : ((ran (.stH noHdr 5 12 1) (devCore (coreWith [(5, 0xABCD), (12, 0x100)]))).map
    (fun t => (t.core.mem, t.core.full))) = some ([(0x102, 0xCD), (0x103, 0xAB)], [0x10]) := by decide +kernel
/-- R160: a misaligned address. -/
theorem test_align : ((ran (.st noHdr 0 5 12 0) (devCore (coreWith [(12, 0x102)]))).map
    (fun t => (t.core.csr.cause, t.core.csr.etval, t.core.csr.epc, t.core.csr.priv))) = some (9, 0x102, 0, true) := by
  decide +kernel
/-- R166: a range that leaves the scratchpad changes nothing. -/
theorem test_feset : ((ran (.feset noHdr 5 12 0) (devCore (coreWith [(5, 2), (12, 0x7FFF0)]))).map
    (fun t => (t.core.full, t.core.csr.cause, t.core.csr.etval))) = some ([], 0x2009, 0x80000) := by decide +kernel
/-- R171: JRL jumps to the old s1 and writes the link. -/
theorem test_jrl : ((ran (.jrl noHdr 1 0) (devCore { coreWith [(1, 0x400)] with pc := 0x200 })).map
    (fun t => (t.core.pc, t.core.reg 1))) = some (0x400, 0x204) := by decide +kernel
/-- R172, the example loop: LOOPI at 0x0208 with END = 2. -/
theorem test_loopi : ((ran (.loopi noHdr 4 2) (devCore { computing with pc := 0x208 })).map
    (fun t => (t.core.csr.lpbeg[0], t.core.csr.lpfin[0], t.core.csr.lpcnt[0], t.core.csr.lpdep, t.core.pc))) =
    some (0x20C, 0x214, 4, 1, 0x20C) := by decide +kernel
/-- R173, the example loop: the ADD at 0x0214 goes back, and at the last trip on. -/
theorem test_loop_back : ((ran (.add noHdr 0 10 10 12) (devCore { computing with pc := 0x214, csr := { Csrs.reset with
      lpbeg := Csrs.reset.lpbeg.set 0 0x20C, lpfin := Csrs.reset.lpfin.set 0 0x214, lpcnt := Csrs.reset.lpcnt.set 0 4,
      lpdep := 1 } })).map (fun t => (t.core.pc, t.core.csr.lpcnt[0], t.core.csr.lpdep))) = some (0x20C, 3, 1) := by
  decide +kernel
theorem test_loop_last : ((ran (.add noHdr 0 10 10 12) (devCore { computing with pc := 0x214, csr := { Csrs.reset with
      lpbeg := Csrs.reset.lpbeg.set 0 0x20C, lpfin := Csrs.reset.lpfin.set 0 0x214, lpcnt := Csrs.reset.lpcnt.set 0 1,
      lpdep := 1 } })).map (fun t => (t.core.pc, t.core.csr.lpcnt[0], t.core.csr.lpdep))) = some (0x218, 0, 0) := by
  decide +kernel
/-- R193: SVC retires, then traps with EPC behind it. -/
theorem test_svc : ((ran (.svc noHdr 5) (devCore { computing with pc := 0x100 })).map
    (fun t => (t.core.csr.cause, t.core.csr.epc, t.core.csr.etval, t.core.csr.retired))) = some (0x10, 0x104, 5, 1) := by
  decide +kernel
/-- R199: ERET takes its mode from ESTATUS and its PC from EPC[15:2]. -/
theorem test_eret : ((ran (.eret noHdr) (devCore { computing with csr := { Csrs.reset with
      priv := true, epc := 0x12347, estatus := 0 } })).map (fun t => (t.core.pc, t.core.csr.priv))) =
    some (0x2344, false) := by decide +kernel
/-- R199: in user mode it is a privilege trap. -/
theorem test_eret_user : ((ran (.eret noHdr) (devCore computing)).map (fun t => t.core.csr.cause)) = some 0x2002 := by
  decide +kernel
/-- R54: a vector instruction in an exchange block. -/
theorem test_phase : ((ran (.vabs noHdr 1 2) (devCore exchanging)).map (fun t => t.core.csr.cause)) = some 0x2003 := by
  decide +kernel
/-- R49: a fetch across pages fails at its second word, CAUSE 0x00000104 (R200). -/
theorem test_ifetch : ((ran (.instructionFetchFault 1 .invalid) (devCore { computing with pc := 0x1FFC })).map
    (fun t => (t.core.csr.cause, t.core.csr.epc, t.core.csr.etval))) = some (0x104, 0x1FFC, 0x2000) := by decide +kernel
/-- R126: FP32 500 in E4M3 is NaN without saturation and the largest finite value with it; in E5M2 it is 512. -/
theorem test_round_500 : (round .e4m3 .rne false (.fin false 500 1)).code = 0x7F ∧
    (round .e4m3 .rne true (.fin false 500 1)).code = 0x7E ∧ (round .e5m2 .rne false (.fin false 500 1)).code = 0x60 := by
  decide +kernel
/-- R123: the product of the LNS8 operands 0x14 and 0x79. -/
theorem test_lns : (round .fp32 .rne false (lnsValue false 13)).code = 0x3FE0CD00 := by decide +kernel
/-- R114: FP6 elements 1, 2, 3, 4 pack into 0x81, 0x30, 0x10. -/
theorem test_pack : ([1, 2, 3, 4].foldl (fun (p : Mem × Nat) v =>
      (writeElem p.1 (rowHandle 6 0 4) p.2 v, p.2 + 1)) ([], 0)).1 = [(0, 0x81), (1, 0x30), (2, 0x10)] := by
  decide +kernel
/-- R216: VABS of INT8 -128 writes 127 and sets NV. -/
theorem test_vabs : ((ran (.vStep 0) (devCore { computing with
      mem := [(0x100, 0x80)]
      engV := engWith [entryWith (.vabs noHdr 1 2) [rowHandle 8 0x200 1, rowHandle 8 0x100 1] []] })).map
    (fun t => (memRead t.core.mem 0x200, t.core.csr.fpctl))) = some (127, 0x10000) := by decide +kernel

/-! ## Hypotheses that are met: the instruction words -/

/-- Every register cell meets the hypotheses of its result statement. -/
theorem witness_ArithmeticResults : ∀ i ∈ ([.add noHdr 1 4 6 8, .sub noHdr 0 3 4 5, .and noHdr 2 4 8 12,
      .or noHdr 0 3 4 5, .xor noHdr 0 3 4 5, .andn noHdr 0 3 4 5, .shl noHdr 3 4 5, .shr noHdr 3 4 5, .sra noHdr 3 4 5,
      .rot noHdr 3 4 5, .min noHdr 3 4 5, .max noHdr 3 4 5, .minu noHdr 3 4 5, .maxu noHdr 3 4 5, .sel noHdr 2 0 6 7 8,
      .addi noHdr 3 4 5, .andi (limmed 0x7F) 5 5 0x1FF, .ori noHdr 3 4 5, .xori noHdr 3 4 5, .shli noHdr 3 4 5,
      .shri noHdr 3 4 5, .srai noHdr 3 4 5, .movi noHdr 3 5] : List Instr),
    ((arithResult i (coreWith [(4, 7)])).map (fun r => ready (coreWith [(4, 7)]) i r.hdr)) = some true := by
  decide +kernel
theorem witness_MultiplyDivideResults : ∀ i ∈ ([.mul noHdr 3 4 5, .mulh noHdr 3 4 5, .mulhu noHdr 3 4 5,
      .div noHdr 3 4 5, .divu noHdr 3 4 5, .rem noHdr 3 4 5, .remu noHdr 3 4 5] : List Instr),
    ((mulDivResult i (coreWith [(4, 7)])).map (fun r => ready (coreWith [(4, 7)]) i r.hdr)) = some true := by
  decide +kernel
theorem witness_BitCellResults : ∀ i ∈ ([.clz noHdr 3 4, .ctz noHdr 3 4, .popc noHdr 3 4, .brev noHdr 3 4,
      .bilv2 noHdr 3 4 5, .bilv3 noHdr 3 4 5, .bdlv2 noHdr 3 4 5, .bdlv3 noHdr 3 4 5, .bfx noHdr 3 4 5,
      .bfi noHdr 3 4 5] : List Instr),
    ((bitResult i (coreWith [(4, 7)])).map (fun r => ready (coreWith [(4, 7)]) i r.hdr)) = some true := by
  decide +kernel
theorem witness_ComparisonResults : ∀ i ∈ ([.cmpEq noHdr 0 3 4 5, .cmpNe noHdr 1 3 4 6, .cmpLt noHdr 0 3 4 5,
      .cmpLe noHdr 0 3 4 5, .cmpLtu noHdr 0 3 4 5, .cmpLeu noHdr 0 3 4 5, .cmpiEq noHdr 3 4 5, .cmpiNe noHdr 3 4 5,
      .cmpiLt noHdr 3 4 5, .cmpiLe noHdr 3 4 5, .cmpiLtu noHdr 3 4 5, .cmpiLeu noHdr 3 4 5, .fcmpEq noHdr 3 4 5,
      .fcmpLt noHdr 3 4 5, .fcmpLe noHdr 3 4 5, .fcmpUn noHdr 3 4 5, .pand noHdr 1 2 3, .por noHdr 1 2 3,
      .pxor noHdr 1 2 3, .pnot noHdr 4 4, .pmov noHdr 0 1] : List Instr),
    ((truth i computing).map (fun r => ready computing i r.1)) = some true := by decide +kernel
theorem witness_FloatResults : ∀ i ∈ ([.fadd noHdr 3 4 5, .fmul noHdr 3 4 5, .fma noHdr 3 4 5, .fmin noHdr 3 4 5,
      .fmax noHdr 3 4 5, .fcvtFI noHdr 3 4, .fcvtFU noHdr 3 4, .fcvtIF noHdr 3 4, .fcvtUF noHdr 3 4] : List Instr),
    ((fpResult i (coreWith [(4, 0x3F800000)])).map (fun r => ready (coreWith [(4, 0x3F800000)]) i r.1)) = some true := by
  decide +kernel

/-- Finite values and infinities of ExactValueArithmetic, and values of RoundingResults: of an integer format in and beyond
the range, and of a floating format that stay finite and that do not. -/
theorem witness_ExactValueArithmetic : (ratOf (.fin true 3 2)).isSome = true ∧ (ratOf Val.zero).isSome = true := ⟨rfl, rfl⟩
theorem witness_RoundingResults : Fmt.int8.int? = some (-128, 127) ∧ ratOf (.fin true 257 2) = some (-257 / 2) ∧
    ratOf (.fin false 5 2) = some (5 / 2) ∧ ratOf (.fin false 128 1) = some 128 ∧ ratOf (.fin true 129 1) = some (-129) := by
  refine ⟨rfl, ?_, ?_, ?_, ?_⟩ <;> norm_num [ratOf]
theorem witness_RoundingResults_float : Fmt.fp32.hasInf = true ∧ (codeValue .fp32 (2 ^ 23)).isSome = true ∧
    ratOf (.fin true 3 2) = some (-3 / 2) := by
  refine ⟨rfl, rfl, ?_⟩
  norm_num [ratOf]
/-- R118: the largest finite value of E5M2, and the step below it. -/
theorem test_top_e5m2 : topValue .e5m2 = 57344 ∧ topStep .e5m2 = 8192 := by decide +kernel
theorem witness_RoundingResults_range : staysFinite .e5m2 .rne (-3 / 2) ∧ staysFinite .e5m2 .rup (-60000) ∧
    ¬staysFinite .e5m2 .rup 60000 ∧ ¬staysFinite .e5m2 .rne 70000 := by
  norm_num [staysFinite, test_top_e5m2]

/-- A core whose granules at 0x100 are full, s12 = 0x100, in supervisor mode. -/
def memCore : Core := { coreWith [(12, 0x100), (13, 2)] with
  full := [0x10, 0x11], mem := writeLE [] 0x100 8 0x1122334455667788, csr := { Csrs.reset with priv := true } }

theorem witness_LoadResults : ∀ i ∈ ([.ldB noHdr 3 12 1, .ldH noHdr 3 12 1, .ld noHdr 3 8 12 0, .ldW noHdr 1 4 12 1,
      .ldC noHdr 0 4 12 0, .ldh noHdr 3 12 0] : List Instr),
    ((loadForm i memCore).map (fun f => ready memCore i f.hdr && loadAllowed memCore f)) = some true := by decide +kernel
/-- A user read of the window past PWIN meets the hypotheses too. -/
theorem witness_LoadResults_window : ((loadForm (.ld noHdr 1 4 12 0) { coreWith [(12, 0xA0000)] with
      csr := { Csrs.reset with pwin := 4 } }).map (fun f => loadAllowed { coreWith [(12, 0xA0000)] with
      csr := { Csrs.reset with pwin := 4 } } f)) = some true := by decide +kernel
theorem witness_ParameterLoadResults : ((paramForm (.ldp noHdr 1 4 0 0) memCore).map
      (fun f => ready memCore (.ldp noHdr 1 4 0 0) f.hdr && paramAllowed memCore f)) = some true ∧
    ((paramForm (.ldp noHdr 1 4 0 0) { computing with csr := { Csrs.reset with pwin := 4 } }).map
      (fun f => paramAllowed { computing with csr := { Csrs.reset with pwin := 4 } } f)) = some true := by decide +kernel
theorem witness_StoreResults : ∀ i ∈ ([.stB noHdr 3 12 1, .stH noHdr 3 12 1, .st noHdr 3 8 12 0, .stE noHdr 1 4 13 15,
      .sth noHdr 3 12 0] : List Instr),
    ((storeForm i { memCore with regs := memCore.regs.set 13 0x200 }).map (fun f =>
      ready { memCore with regs := memCore.regs.set 13 0x200 } i f.hdr &&
      storeAllowed { memCore with regs := memCore.regs.set 13 0x200 } f)) = some true := by decide +kernel
theorem witness_FullEmptyResults : ∀ i ∈ ([.feq noHdr 2 12 2, .feset noHdr 13 12 0, .feclr noHdr 13 12 0] : List Instr),
    ((granuleCell i memCore).map (fun r => ready memCore i r.1)) = some true := by decide +kernel
/-- A range of 200 granules: a cycle at its begin, and its last one with 128 granules changed. -/
def rangeCore (i : Instr) (k : Nat) : Core :=
  let c := memCore.setReg 13 200
  if k = 0 then c else { c with held := some { instr := i, why := .range, waits := [], done := k } }
theorem witness_FullEmptyResults_range : ∀ i ∈ ([.feset noHdr 13 12 0, .feclr noHdr 13 12 0] : List Instr),
    ([0, 64].all (fun k => (rangeCycle i (rangeCore i k)).isSome && ready (rangeCore i k) i noHdr) &&
      [136, 192].all (fun k => (granuleCell i (rangeCore i k)).isSome && (rangeCycle i (rangeCore i k)).isNone)) = true := by
  decide +kernel
/-- R166: the first 64 of 100 granules, and the instruction still there. -/
theorem test_feset_range : ((ran (.feset noHdr 13 12 0) (devCore (memCore.setReg 13 100))).map
    (fun t => (t.core.full.length, t.core.pc, t.core.held.map (·.done)))) = some (64, 0, some 64) := by decide +kernel
theorem witness_ControlTransferResults : ∀ i ∈ ([.br noHdr 5, .brl noHdr 5, .jr noHdr 12 1, .jrl noHdr 12 1] : List Instr),
    ((transfer i memCore).map (fun r => ready memCore i r.hdr)) = some true := by decide +kernel
theorem witness_LoopCellResults : ∀ i ∈ ([.loop noHdr 13 3, .loop noHdr 0 3, .loopi noHdr 4 2,
      .loopi (limmed 1) 4 2] : List Instr),
    ((loopNext i memCore).map (fun r => ready memCore i r.1)) = some true := by decide +kernel
/-- Depths that TakenTransferPopsLevels and RetirementLoopEnd speak of, with an instruction at the end of its body whose
count stays and one whose count ends. -/
theorem witness_RetirementLoopEnd : Csrs.reset.lpdep.toNat ≤ 4 ∧ (4#3).toNat ≤ 4 ∧
    ({ computing with pc := 0x214, csr := { Csrs.reset with
      lpfin := Csrs.reset.lpfin.set 0 0x214, lpdep := 1, lpcnt := Csrs.reset.lpcnt.set 0 2 } } : Core).atLoopEnd
      0x214 noHdr = true ∧ ((2 : Word) - 1 ≠ 0) ∧ ((1 : Word) - 1 = 0) := by decide +kernel
theorem witness_GuardFalseRetires : (Instr.vadd (guarded 5) 1 2 3 0).hdr = some (guarded 5) ∧
    computing.pred (guarded 5).g.toNat = false := by decide +kernel
theorem witness_CsrReadResults : ((csrReadResult (.csrr noHdr 1 4 0x10) (devCore computing)).map
      (fun r => ready computing (.csrr noHdr 1 4 0x10) r.hdr)) = some true ∧
    (csrField 0 computing 0x110).isSome = true := by decide +kernel
theorem witness_CsrWriteResults : ∀ i ∈ ([.csrw noHdr 0 4 0x54, .csrs noHdr 0 4 0x53, .csrc noHdr 1 4 0x54] : List Instr),
    ((csrWriteForm i).map (fun r => (csrWritten (devCore computing) r.2.1 r.2.2.1 r.2.2.2.1 r.2.2.2.2).isSome &&
      ready computing i r.1)) = some true := by decide +kernel
theorem witness_CsrWriteReadsBack : ∀ k ∈ [0x002, 0x004, 0x027, 0x030, 0x048, 0x050, 0x060, 0x100, 0x10B, 0x10C],
    (plainCsr k).isSome = true := by decide
/-- The CSRs with rules of their own, under each of the three cells, at the bounds of their fields. -/
theorem witness_CsrWriteReadsBack_special : ∀ k ∈ [0x000, 0x001, 0x005, 0x051, 0x052, 0x053, 0x061, 0x080, 0x0C0, 0x0C2],
    ∀ cell ∈ [0, 1, 2], (specialCsr cell k 0x1F0007 0xFFFFFFFF).isSome = true := by decide
/-- A write of XNEXT where identifier 5 has not completed, and of XDONE behind it. -/
theorem witness_CsrWriteReadsBack_channels :
    (let c := (exXfers [begunWith { entryWith (.xld noHdr 1 5 0 0) [rowHandle 0 0x1000 4] [2 ^ 62 * 3 + 2 ^ 56, 0, 16] with xid := 5 } [0]]).core
     unfinished c 0 == [5] && doneFrom c 0 9 3 == 5 && doneFrom c 0 9 6 == 9 && doneFrom c 1 9 3 == 9) = true := by decide +kernel
/-- R33: PWIN takes multiples of 4 up to 4,096. R129: RM 7 becomes 0, and ones clear sticky bits. -/
theorem test_pwin : (ran (.csrw noHdr 0 4 0x061) (devCore (memCore.setReg 4 0x2003))).map (fun t => t.core.csr.pwin.toNat) =
    some 4096 := by decide +kernel
theorem test_fpctl : ((ran (.csrw noHdr 0 4 0x053) (devCore { coreWith [(4, 0x30017)] with
    csr := { Csrs.reset with fpctl := 0x50000 } })).map (fun t => t.core.csr.fpctl)) = some 0x40010 := by decide +kernel

/-- A core whose q1 holds an entry, with a frozen engine. -/
def sysCore : Core := { computing with
  queues := (Vector.replicate 4 []).set 1 [5], csr := { Csrs.reset with priv := false } }

theorem witness_SystemCellResults : ∀ i ∈ ([.nop noHdr, .iter noHdr, .sync noHdr, .svc noHdr 5, .bkpt noHdr 5,
      .qpop noHdr 4 1, .qstat noHdr 4 1, .rng noHdr 4 3, .lendM noHdr 2, .lendV noHdr 2] : List Instr),
    ((i.hdr).map (fun h => ready sysCore i h && (systemNext i (devCore sysCore)).isSome)) = some true := by decide +kernel
theorem witness_SystemCellResults_more :
    (systemNext (.eret noHdr) (devCore memCore)).isSome = true ∧
    (systemNext (.sync noHdr) (devCore exchanging)).isSome = true ∧
    (systemNext (.bkpt noHdr 5) (devCore { sysCore with csr := { Csrs.reset with dbgctl := 1 } })).isSome = true := by
  decide +kernel

/-- A core whose sixteen handles are one. -/
def handleCore (x : HandleBits) : Core := { computing with handles := Vector.replicate 16 x }

/-- The vector form of an instruction passes its checks on a core. -/
def vecGood (c : Core) (i : Instr) : Bool :=
  match vectorForm i c with
  | some f => mayDispatch c f.hdr .V && f.good
  | none => false

theorem witness_VectorDispatch : ∀ i ∈ ([.vadd noHdr 1 2 3 0, .vsub noHdr 1 2 0 5, .vmul noHdr 1 2 3 0,
      .vfma noHdr 1 2 3 0, .vmin noHdr 1 2 3 0, .vmax noHdr 1 2 3 0, .vabs noHdr 1 2, .vneg noHdr 1 2, .vrcp noHdr 1 2,
      .vrsq noHdr 1 2, .vexp2 noHdr 1 2, .vlog2 noHdr 1 2, .vsin noHdr 1 2, .vcos noHdr 1 2, .vtanh noHdr 1 2,
      .vsigm noHdr 1 2, .vcmpEq noHdr 1 2 3 0, .vcmpNe noHdr 1 2 3 0, .vcmpLt noHdr 1 2 3 0, .vcmpLe noHdr 1 2 3 0,
      .vmsel noHdr 1 2 3 4, .vmselM noHdr 1 2 3, .vcvt noHdr 1 2 3 0, .vdqt noHdr 1 2 0, .vpermb noHdr 1 2 3,
      .vbcast noHdr 1 0 3, .vbcast noHdr 1 2 0, .vmov noHdr 1 2, .vrsum noHdr 1 2, .vrmax noHdr 1 2, .vrmin noHdr 1 2,
      .vrsumQ noHdr 1 2, .vrmaxQ noHdr 1 2, .vrminQ noHdr 1 2, .vscan noHdr 1 2 1, .vrng noHdr 1 2, .vdrop noHdr 1 2,
      .vnorm noHdr 1 2 3 4, .vsmax noHdr 1 2 3] : List Instr), vecGood (handleCore (rowHandle 0 0x1000 1)) i = true := by
  decide +kernel
theorem witness_VectorDispatch_int : ∀ i ∈ ([.viadd noHdr 1 2 3 0, .visub noHdr 1 2 3 0, .vimul noHdr 1 2 3 0,
      .vand noHdr 1 2 3 0, .vor noHdr 1 2 3 0, .vxor noHdr 1 2 3 0, .vshl noHdr 1 2 3 0, .vshr noHdr 1 2 3 0,
      .vsra noHdr 1 2 3 0, .vclz noHdr 1 2, .vpopc noHdr 1 2, .vbilv noHdr 1 2 3 0, .vshuf noHdr 1 2 3, .vgath noHdr 1 2 3,
      .vscat noHdr 1 2 3] : List Instr), vecGood (handleCore (rowHandle 12 0x1000 1)) i = true := by decide +kernel
theorem witness_VectorDispatch_quant :
    vecGood (handleCore (rowHandle 1 0x1000 16 ||| BitVec.ofNat 256 (2 ^ 112 + 0x2000 * 2 ^ 117))) (.vqnt noHdr 1 2 0) = true := by
  decide +kernel
theorem witness_MatrixDispatch : ∀ i ∈ ([.mcfg noHdr 1 1, .mws noHdr, .mza noHdr 1 2, .mdrn noHdr, .mstat noHdr 1,
      .mwl noHdr 1, .mms noHdr 1 0 1 3, .mmsz noHdr 1 0 1 3, .msclC noHdr 1 0, .msclR noHdr 1 0, .msclK noHdr 1,
      .mrd noHdr 1 0 0 0, .mwr noHdr 1 0 0] : List Instr),
    ((matrixForm i (handleCore (rowHandle 0 0x1000 1))).map (fun f =>
      mayDispatch (handleCore (rowHandle 0 0x1000 1)) f.hdr .M && f.good)) = some true := by decide +kernel
theorem witness_LocalCopyDispatch : ∀ i ∈ ([.xcpy noHdr 1 2, .xtrn noHdr 1 2, .xfill noHdr 1 3] : List Instr),
    ((copyForm i (handleCore (rowHandle 0 0x1000 1))).map (fun f =>
      mayDispatch (handleCore (rowHandle 0 0x1000 1)) f.hdr .L && f.good)) = some true := by decide +kernel

/-- An exchanging core of a gang of two with addresses of every kind in its register pairs: a virtual one at s4, a core's
window at s6, a group at s8, staging at s10, and the device resources 3 to 6 from s12 on; virtual and staging at s20 to
s27. -/
def transferCore (x : HandleBits) : Core :=
  let pair := fun (n a : Nat) => [(n, BitVec.ofNat 32 a), (n + 1, BitVec.ofNat 32 (a / 2 ^ 32))]
  let dev := fun k => 3 * 2 ^ 62 + k * 2 ^ 56
  let c := (pair 4 0x100000 ++ pair 6 (2 ^ 62 + 0x200) ++ pair 8 (2 * 2 ^ 62 + 2 ^ 51 + 0x200) ++ pair 10 (dev 1) ++
    pair 12 (dev 3) ++ pair 14 (dev 4) ++ pair 16 (dev 5) ++ pair 18 (dev 6) ++ pair 20 0x100000 ++ pair 22 (dev 1) ++
    pair 24 (dev 1) ++ pair 26 0x100000).foldl (fun c p => c.setReg p.1 p.2) exchanging
  { c with handles := Vector.replicate 16 x
           csr := { c.csr with gang := BitVec.ofNat 22 (2 ^ 11), sigmap := 0x20000, xnext := Vector.replicate 4 1 } }

/-- The transfer form of an instruction passes its checks on a core. -/
def xferGood (c : Core) (i : Instr) : Bool :=
  match xferForm i c with
  | some f => mayDispatch c f.hdr .E && (f.trap c (main i)).isNone
  | none => false

theorem witness_TransferDispatch : ∀ i ∈ ([.xput noHdr 1 3 0 0, .xget noHdr 1 3 0 0, .xget noHdr 1 8 0 0,
      .xbc noHdr 1 4 0 0, .xld noHdr 1 5 0 0, .xdec noHdr 1 7 0, .xrdev noHdr 1 9 0 0, .xldg noHdr 1 4 0 0,
      .xpf (limmed 16) 5 0, .xst noHdr 1 6 0 0, .xatmGrp noHdr 1 1 2 0 0, .xatmGang noHdr 1 1 2 0 0,
      .xatmDev noHdr 1 1 2 0 0, .xatmSys noHdr 1 1 2 0 0, .xenc noHdr 1 6 0 0, .xovl noHdr 5 0, .xsig noHdr 1 0 0] :
      List Instr), xferGood (transferCore (rowHandle 0 0x1000 4)) i = true := by decide +kernel
theorem witness_TransferDispatch_more :
    xferGood (transferCore (rowHandle 12 0x1000 4)) (.xgth (limmed 1) 1 2 5 0) = true ∧
    xferGood (transferCore (rowHandle 12 0x1000 16)) (.xlaunch noHdr 1 2 0) = true := by decide +kernel
theorem witness_ExchangeWaitDispatch : ∀ i ∈ ([.xarm noHdr 2 5, .xarmImm (limmed 48) 2, .xwait noHdr 0 0, .xwaitL noHdr 2,
      .xfence noHdr 1] : List Instr),
    ((waitForm i (transferCore 0)).map (fun r => mayDispatch (transferCore 0) r.1 .E && r.2.2)) = some true := by
  decide +kernel

/-- An instruction whose words stand at the PC. -/
def placed (i : Instr) : State := State.reset.withFetchWord 96
  ((encode i).foldr (fun w n => w + 2 ^ 32 * n) 0)

theorem witness_StepRunsDecodedInstruction : ∀ i ∈ ([.sub noHdr 0 3 4 5, .movi (limmed 0x91A2B) 5 0x78,
      .nop { tok := some ⟨0x080, 0x07F, 0x07F⟩, limm := none, g := 0 }] : List Instr),
    (i.hdr.isSome && i.wf && wordsAt (placed i).core (encode i) && noOverlayDue (placed i).core &&
      (atBoundary (placed i)).isNone && (placed i).turns.isEmpty && (placed i).solo && (placed i).core.issues &&
      !(placed i).stilled) = true := by decide +kernel
theorem witness_IllegalWordTraps : (wordsAt (State.reset.withFetchWord 32 0).core [0] &&
    wordsNeeded [0] == 1 && (match decodeList [0] with
      | .error _ => true
      | .ok _ => false) && !(State.reset.withFetchWord 32 0).core.csr.priv) = true := by decide +kernel
/-- Words that are refused with each SUB, behind prefixes and without, and XWAIT with its reserved mode. -/
theorem witness_IllegalWordTraps_refusal : ∀ e ∈ ([(none, none, 0, 0), (none, none, 0xE0000000, 0),
      (none, some 0x70000001, 0x00818828, 4), (none, none, 0x58100001, 1), (some 0x60000001, none, 0x58000000, 1),
      (none, none, 0x00228C40, 3), (none, none, 0x03600000, 5), (none, none, 0x50000060, 5), (none, none, 0xC8800010, 5)] :
      List (Option Nat × Option Nat × Nat × Nat)),
    ((refusal e.1 e.2.1 e.2.2.1).map (·.sub)) = some e.2.2.2 ∧ (e.1.all (· / 2 ^ 28 == 6)) = true ∧
      (e.2.1.all (· / 2 ^ 28 == 7)) = true := by decide +kernel
theorem witness_DecodeEncodeRoundTrip : ((Instr.vsmax noHdr 1 2 3).hdr.isSome && (Instr.vsmax noHdr 1 2 3).wf) = true := by
  decide

/-- Every precise trap of MemoryTraps: ALIGN twice, PARAM twice, FEWAIT twice, POISON twice. -/
theorem witness_MemoryTraps : ∀ e ∈ ([(.ld noHdr 0 4 12 0, coreWith [(12, 0x102)]), (.ld noHdr 0 4 12 0, coreWith [(12, 0xA1000)]),
      (.ld noHdr 0 4 12 0, coreWith [(12, 0xA0000)]), (.st noHdr 0 4 12 0, coreWith [(12, 0xA0000)]),
      (.ldW noHdr 0 4 12 0, coreWith [(12, 0x100)]), (.stE noHdr 0 4 12 0, { coreWith [(12, 0x100)] with full := [0x10] }),
      (.stE noHdr 0 4 12 0, coreWith [(12, 0x80000)]), (.ldh noHdr 3 12 0, { coreWith [(12, 0x100)] with poison := [0x23] }),
      (.stB noHdr 4 12 0, { coreWith [(12, 0x100)] with poison := [0x20] }), (.ldp noHdr 0 4 12 0, coreWith [(12, 2)]),
      (.ldp noHdr 0 4 12 0, coreWith []), (.feq noHdr 2 12 0, coreWith [(12, 8)]),
      (.feset noHdr 13 12 0, coreWith [(12, 0x7FFF0), (13, 2)])] : List (Instr × Core)),
    ((e.1.hdr).map (fun h => ready e.2 e.1 h && !e.2.csr.priv && (memoryTrap e.1 e.2).isSome)) = some true := by
  decide +kernel
theorem witness_ControlTraps : ∀ e ∈ ([(.jr noHdr 12 0, coreWith [(12, 2)]), (.jrl noHdr 12 0, coreWith [(12, 2)]),
      (.loop noHdr 12 3, { computing with csr := { Csrs.reset with lpdep := 4 } }),
      (.loopi noHdr 4 3, { computing with csr := { Csrs.reset with lpdep := 4 } }), (.qpop noHdr 4 1, computing),
      (.lendM noHdr 0, { computing with
        engV := engWith [entryWith (.vabs noHdr 1 2) [rowHandle 0 0x80000 1, rowHandle 0 0x80000 1] []],
        csr := { Csrs.reset with accown := 1 } }),
      (.lendV noHdr 0, { computing with
        engM := engWith [entryWith (.mza noHdr 0 0) [] []] })] : List (Instr × Core)),
    ((e.1.hdr).map (fun h => ready e.2 e.1 h && !e.2.csr.priv && (controlTrap e.1 e.2).isSome)) = some true := by
  decide +kernel
theorem witness_PrivilegeTraps : ∀ i ∈ ([.eret noHdr, .csrr noHdr 0 4 0x100, .csrw noHdr 0 4 0x050, .csrs noHdr 0 4 0x0C0,
      .csrc noHdr 1 4 0x0C2] : List Instr),
    ((i.hdr).map (fun h => computing.guard h && !computing.csr.priv && (privilegeTrap i (devCore computing)).isSome)) =
      some true := by decide +kernel
theorem witness_PhaseTraps : (phaseTrap (.vabs noHdr 1 2) exchanging).isSome = true ∧
    (phaseTrap (.iter noHdr) exchanging).isSome = true ∧ (phaseTrap (.xfence noHdr 0) computing).isSome = true := by
  decide +kernel
/-- A core in supervisor mode. -/
def sup (c : Core) : Core := { c with csr := { c.csr with priv := true } }
/-- A core whose q1 is full, into which V is held pushing, with an M instruction that waits for V. -/
def stuckCore (c : Core) : Core := { c with
  queues := (Vector.replicate 4 []).set 1 (List.replicate 8 5)
  engV := { engWith (List.replicate 16 (entryWith (.vrsumQ noHdr 1 2) [rowHandle 0 0x1000 1] [])) with
    iss := 16, pushing := some (1, 7) }
  engM := { engWith [{ entryWith (.mza noHdr 0 0) [] [] with waits := [⟨.V, 16, 0⟩] }] with iss := 1 } }
/-- The traps of DoubleTraps: by access, transfer of control, privilege, phase, a refused CSR write, the checks at dispatch, a
frozen full queue, and a dead-held front end; without a task, and with one. -/
theorem witness_DoubleTraps : ∀ e ∈ ([(.ld noHdr 0 4 13 0, memCore, 9, 0), (.jr noHdr 13 0, { memCore with task := some taskOne }, 9, 0),
      (.csrw noHdr 0 4 0x004, memCore, 2, 2), (.csrs noHdr 0 4 0x010, memCore, 1, 5), (.csrc noHdr 1 4 0x072, memCore, 1, 5),
      (.csrw noHdr 0 4 0x050, { memCore with
        engV := engWith [entryWith (.vabs noHdr 1 2) [rowHandle 0 0x80000 1, rowHandle 0 0x80000 1] []]
        csr := { memCore.csr with accown := 1 } }, 1, 7),
      (.xfence noHdr 0, memCore, 3, 0), (.vabs noHdr 1 2, sup (handleCore (rowHandle 15 0x1000 1)), 1, 6),
      (.mwl noHdr 1, sup (handleCore (rowHandle 0 0x1000 600)), 1, 6), (.xwait noHdr 4 0, sup (transferCore 0), 11, 4),
      (.vabs noHdr 1 2, sup { (stuckCore computing) with engV := { (stuckCore computing).engV with frozen := true } }, 10, 6),
      (.vabs noHdr 1 2, sup (stuckCore computing), 8, 5), (.add { tok := some ⟨0, 0x07F, 0x07F⟩, limm := none, g := 0 } 0 3 4 5,
        sup (stuckCore computing), 8, 5), (.sync noHdr, sup (stuckCore computing), 8, 5)] : List (Instr × Core × Nat × Nat)),
    (e.1.hdr.map (fun h => e.2.1.csr.priv &&
      (preciseTrap e.1 (devCore e.2.1) h).map (fun r => (r.1, r.2.1)) == some (e.2.2.1, e.2.2.2))) = some true := by
  decide +kernel
theorem witness_DoubleTraps_more : memCore.csr.priv = true ∧ ready memCore (.svc noHdr 5) noHdr = true ∧
    ready memCore (.bkpt noHdr 5) noHdr = true ∧ memCore.csr.dbgctl.toNat % 2 = 0 ∧ State.reset.core.csr.priv = false ∧
    (devCore memCore).core.csr.priv = true := by decide +kernel
/-- Each check at dispatch: handles of R21 by their three cases, formats and shapes, the cell of a transfer, its rows, its
count, its addresses by kind, alignment, range and gang, XSIG's slot, and the identifier of XWAIT. -/
theorem witness_DispatchChecksQueueNothing : ∀ e ∈ ([(.vabs noHdr 1 2, handleCore (rowHandle 15 0x1000 1), 1, 6),
      (.mwl noHdr 1, handleCore (rowHandle 15 0x1000 1), 1, 6), (.xcpy noHdr 1 2, handleCore (rowHandle 15 0x1000 1), 1, 6),
      (.vabs noHdr 1 2, handleCore (rowHandle 0 0x1002 1), 9, 2), (.vabs noHdr 1 2, handleCore (rowHandle 5 0x1000 1), 9, 3),
      (.viadd noHdr 1 2 3 0, handleCore (rowHandle 0 0x1000 1), 1, 5), (.mwl noHdr 1, handleCore (rowHandle 0 0x1000 300), 1, 6),
      (.xtrn noHdr 1 2, handleCore (rowHandle 0 0x1000 2), 1, 6)] : List (Instr × Core × Nat × Nat)),
    ((engineFor e.1 e.2.1).map (fun g => mayDispatch e.2.1 noHdr g && !e.2.1.csr.priv &&
      (formTrap e.1 e.2.1).map (fun r => (r.1, r.2.1)) == some e.2.2)) = some true := by decide +kernel
theorem witness_DispatchChecksQueueNothing_exchange : ∀ e ∈ ([(.xput noHdr 1 4 0 0, transferCore (rowHandle 0 0x1000 4), 11, 0),
      (.xwait noHdr 4 0, transferCore 0, 11, 4), (.xrdev noHdr 1 9 0 0, transferCore (rowHandle 3 0x1000 16), 1, 5),
      (.xput noHdr 1 3 0 0, (transferCore (rowHandle 0 0x1000 4)).setReg 6 0x204, 11, 1),
      (.xput noHdr 1 3 0 0, transferCore (rowHandle 0 0x1000 3), 11, 1), (.xput (limmed 32) 1 3 0 0, transferCore (rowHandle 0 0x1000 4), 11, 1),
      (.xput noHdr 1 3 0 0, (transferCore (rowHandle 0 0x1000 8)).setReg 6 0x7FFF0, 11, 1),
      (.xput noHdr 1 3 0 0, (transferCore (rowHandle 0 0x1000 4)).setReg 6 0x80000200, 11, 2),
      (.xsig noHdr 4 0 1, transferCore 0, 11, 3)] :
      List (Instr × Core × Nat × Nat)),
    ((engineFor e.1 e.2.1).map (fun g => mayDispatch e.2.1 noHdr g && !e.2.1.csr.priv &&
      (formTrap e.1 e.2.1).map (fun r => (r.1, r.2.1)) == some e.2.2)) = some true := by decide +kernel

/-- A wait for V at distance 0, on a core whose V has one instruction under way. -/
def waitHdr : Hdr := { tok := some ⟨0, 0x07F, 0x07F⟩, limm := none, g := 0 }
def busyCore (frozen : Bool) : Core := { handleCore (rowHandle 0 0x1000 1) with
  engV := { engWith (List.replicate 16 (entryWith (.vabs noHdr 1 2) [rowHandle 0 0x1000 1, rowHandle 0 0x1000 1] [])) with
    iss := 16, frozen := frozen } }
/-- The stuck core, with VADD behind the reduction in place of its copies: it writes 0x100. -/
def stuckLoad (c : Core) : Core :=
  let x := stuckCore c
  let q := List.replicate 15 (entryWith (.vabs noHdr 1 2) [rowHandle 0 0x100 1, rowHandle 0 0x1000 1] [])
  { x with engV := { x.engV with queue := entryWith (.vrsumQ noHdr 1 2) [rowHandle 0 0x1000 1] [] :: q } }
theorem witness_HeldFrontEnd : plainCell (.add waitHdr 0 3 4 5) (busyCore false) = true ∧
    (busyCore false).guard waitHdr = true ∧ waitsDone (busyCore false) (.add waitHdr 0 3 4 5) waitHdr = false ∧
    flowing (busyCore false) = true ∧ engineFor (.vabs noHdr 1 2) (busyCore false) = some .V ∧
    reachesQueue (busyCore false) noHdr .V = true ∧ depthOf .V ≤ ((busyCore false).eng .V).queue.length ∧
    ((busyCore true).eng .V).frozen = true ∧ flowing (busyCore true) = true := by decide +kernel

/-- QDEAD in user mode: of a dispatch, of a token wait, of SYNC, of a counter write, of a waiting load. -/
theorem witness_HeldFrontEnd_dead : ∀ i ∈ ([.vabs noHdr 1 2, .add waitHdr 0 3 4 5, .sync noHdr,
      .ldW noHdr 0 4 12 0] : List Instr),
    (i.hdr.map (fun h => (preciseTrap i (devCore (stuckLoad (coreWith [(12, 0x100)]))) h).map (fun r => (r.1, r.2.1)) ==
      some (8, 5))) = some true := by decide +kernel

/-- The frames: a destination, a ready instruction, a next state. -/
theorem witness_RegisterFrame : (writtenRegs (.fadd noHdr 3 4 5) (devCore computing)).isSome = true ∧
    (writtenRegs (.csrr noHdr 1 4 0x10) (devCore computing)).isSome = true ∧
    (ran (.fadd noHdr 3 4 5) (devCore computing)).isSome = true := by decide +kernel
theorem witness_StoreFrame : memWf memCore.mem = true ∧ setWfFrom 0 memCore.full = true ∧
    setWfFrom 0 memCore.poison = true ∧ (ran (.st noHdr 3 8 12 0) (devCore memCore)).isSome = true := by decide +kernel
theorem witness_LoadFrame : setWfFrom 0 memCore.full = true ∧ (ran (.ldC noHdr 0 4 12 0) (devCore memCore)).isSome = true := by decide +kernel
theorem witness_DispatchFrame : (engineFor (.vabs noHdr 1 2) (handleCore (rowHandle 0 0x1000 1))) = some .V ∧
    formTrap (.vabs noHdr 1 2) (handleCore (rowHandle 0 0x1000 1)) = none ∧
    (ran (.vabs noHdr 1 2) (devCore (handleCore (rowHandle 0 0x1000 1)))).isSome = true := by decide +kernel
/-- A user instruction that stays in user mode, and one that traps. -/
theorem witness_UserModeKeepsSupervisorState :
    ((ran (.add noHdr 0 3 4 5) (devCore computing)).map (fun t => t.core.csr.priv)) = some false ∧
    ((ran (.svc noHdr 3) (devCore computing)).map (fun t => t.core.csr.priv)) = some true := by decide +kernel
theorem witness_PcStaysAligned : (Instr.jr noHdr 12 0).hdr.isSome = true ∧ computing.pc.toNat % 4 = 0 ∧
    (ran (.jr noHdr 12 0) (devCore computing)).isSome = true := by decide +kernel
theorem witness_StepKeepsMemories : State.memoriesWf (devCore memCore) = true ∧
    State.memoriesWf (State.reset.withFetchWord 32 0x27280000) = true ∧
    (match step (State.reset.withFetchWord 32 0x27280000) with
     | .next _ => true
     | _ => false) = true := by decide +kernel

/-! ## Hypotheses that are met: engine steps and holds -/

theorem witness_VectorElementResults : ∀ e ∈ ([(.vadd noHdr 0 1 2 0, 3, 0), (.vsub noHdr 0 1 2 0, 3, 0), (.vmul noHdr 0 1 2 5, 2, 0),
      (.vfma noHdr 0 1 2 0, 3, 1), (.vmin noHdr 0 1 2 0, 3, 2), (.vmax noHdr 0 1 2 0, 3, 3), (.vabs noHdr 0 1, 2, 8),
      (.vneg noHdr 0 1, 2, 0), (.viadd noHdr 0 1 2 0, 3, 12), (.visub noHdr 0 1 2 0, 3, 12), (.vimul noHdr 0 1 2 0, 3, 12),
      (.vand noHdr 0 1 2 0, 3, 12), (.vor noHdr 0 1 2 0, 3, 12), (.vxor noHdr 0 1 2 0, 3, 13), (.vshl noHdr 0 1 2 0, 3, 12),
      (.vshr noHdr 0 1 2 0, 3, 12), (.vsra noHdr 0 1 2 0, 3, 14), (.vclz noHdr 0 1, 2, 12), (.vpopc noHdr 0 1, 2, 12),
      (.vcmpEq noHdr 0 1 2 0, 3, 0), (.vcmpNe noHdr 0 1 2 0, 3, 0), (.vcmpLt noHdr 0 1 2 0, 3, 0),
      (.vcmpLe noHdr 0 1 2 0, 3, 0), (.vmsel noHdr 0 1 2 5, 3, 0), (.vmov noHdr 0 1, 2, 0)] : List (Instr × Nat × Nat)),
    (let x := entryWith e.1 (List.replicate e.2.1 (rowHandle e.2.2 0x100 1)) [0]
     let c := { computing with engV := engWith [x] }
     mayStep (devCore c) 0 && oneStep c x && (oneResult c.mem x (rowHandle e.2.2 0x100 1)).isSome) = true := by
  decide +kernel
/-- A handle of two rows of d0 elements, and one whose blocks of 32 have scales at 0x5000. -/
def rows2 (fmt base d0 : Nat) : HandleBits := rowHandle fmt base d0 + BitVec.ofNat 256 (2 ^ 40 + 64 * 2 ^ 72)
def scaled (fmt base d0 : Nat) : HandleBits := rows2 fmt base d0 + BitVec.ofNat 256 (2 ^ 112 + 0x5000 * 2 ^ 117 + 16 * 2 ^ 137)
/-- A core at a step of a vector instruction. -/
def vecCore (i : Instr) (hs : List HandleBits) (xs : List Nat) (k : Nat) : Core := { computing with
  mem := memWith 0x1000 8 0x4040000040000000
  engV := { engWith [entryWith i hs xs] with mpc := BitVec.ofNat 32 k } }
def vecMet (c : Core) : Bool :=
  match c.engV.queue.head? with
  | some x => mayStep (devCore c) 0 && vectorGoes c x && (vectored c x c.engV.mpc.toNat).isSome
  | none => false
/-- The cells by elements, of three elements in two rows, with a broadcast source. -/
theorem witness_VectorElementResults_cells : ∀ i ∈ ([.vadd noHdr 1 2 3 0, .vfma noHdr 1 2 3 0, .vmsel noHdr 1 2 3 5,
      .vmselM noHdr 1 2 3, .vabs noHdr 1 2, .vrcp noHdr 1 2, .vrsq noHdr 1 2, .vexp2 noHdr 1 2, .vlog2 noHdr 1 2,
      .vsin noHdr 1 2, .vcos noHdr 1 2, .vtanh noHdr 1 2, .vsigm noHdr 1 2, .vcmpLe noHdr 1 2 3 0, .vmov noHdr 1 2,
      .vcvt noHdr 1 2 0 1, .vdqt noHdr 1 2 0, .vbcast noHdr 1 2 0, .vrng noHdr 1 0, .vdrop noHdr 1 1] : List Instr),
    vecMet (vecCore i [rows2 0 0x2000 3, rows2 0 0x1000 3, rowHandle 0 0x1000 1] [1, 2, 3, 4, 5, 6, 7, 8] 0) = true := by
  decide +kernel
theorem witness_VectorElementResults_ints : ∀ i ∈ ([.viadd noHdr 1 2 3 0, .vand noHdr 1 2 3 0, .vshl noHdr 1 2 3 0,
      .vclz noHdr 1 2, .vbilv noHdr 1 2 3 0, .vbilv noHdr 1 2 3 1, .vpermb noHdr 1 2 3, .vshuf noHdr 1 2 3,
      .vgath noHdr 1 2 3, .vscat noHdr 1 2 3] : List Instr),
    vecMet (vecCore i [rows2 12 0x2000 3, rows2 12 0x1000 3, rows2 12 0x3000 3] [] 0) = true := by decide +kernel
/-- The row cells at the last step of their second row, VQNT at each of its rows, VDQT with scales. -/
theorem witness_VectorElementResults_rows : ∀ e ∈ ([(.vrsum noHdr 1 2, [rows2 0 0x2000 1, rows2 0 0x1000 3], 1),
      (.vrmax noHdr 1 2, [rows2 0 0x2000 1, rows2 0 0x1000 3], 1), (.vrmin noHdr 1 2, [rows2 0 0x2000 1, rows2 0 0x1000 3], 0),
      (.vrsumQ noHdr 1 2, [rows2 0 0x1000 3], 0), (.vrmaxQ noHdr 1 2, [rows2 0 0x1000 3], 1),
      (.vrminQ noHdr 1 2, [rows2 12 0x1000 3], 1), (.vscan noHdr 1 2 1, [rows2 0 0x2000 3, rows2 0 0x1000 3], 1),
      (.vnorm noHdr 1 2 3 0, [rows2 0 0x2000 3, rows2 0 0x1000 3, rowHandle 0 0x1000 3], 0),
      (.vsmax noHdr 1 2 0, [rows2 0 0x2000 3, rows2 0 0x1000 3], 0), (.vqnt noHdr 1 2 0, [scaled 3 0x2000 8, rows2 0 0x1000 8], 0),
      (.vqnt noHdr 1 2 0, [scaled 3 0x2000 8, rows2 0 0x1000 8], 1), (.vdqt noHdr 1 2 0, [rows2 0 0x2000 3, scaled 3 0x1000 3], 0)] :
      List (Instr × List HandleBits × Nat)), vecMet (vecCore e.1 e.2.1 [] e.2.2) = true := by
  decide +kernel
/-- R231: the first row's sum 2 + 3 + 0 of FP32. -/
theorem test_vrsum : (match exec (.vStep 0) (devCore (vecCore (.vrsum noHdr 1 2) [rows2 0 0x2000 1, rows2 0 0x1000 3] [] 0)) with
    | .next t => readLE t.core.mem 0x2000 4 == 0x40A00000
    | _ => false) = true := by decide +kernel
/-- R234: the element that index 1 names. -/
theorem test_vgath : (match exec (.vStep 0) (devCore { vecCore (.vgath noHdr 1 2 3)
      [rowHandle 12 0x2000 1, rowHandle 12 0x1000 2, rowHandle 12 0x3000 1] [] 0 with
        mem := writeLE (memWith 0x1000 8 0x0000000700000005) 0x3000 4 1 }) with
    | .next t => readLE t.core.mem 0x2000 4 == 7
    | _ => false) = true := by decide +kernel
theorem witness_MatrixStepResults : ∀ i ∈ ([.mcfg noHdr 1 1, .mdrn noHdr, .mstat noHdr 1] : List Instr),
    (let x := entryWith i [] []
     let c := { computing with engM := engWith [x] }
     mayStep (devCore c) 0 && headReady c c.engM x && (afterMatrix c x).isSome) = true := by
  decide +kernel
/-- A core whose M runs an instruction of one handle, with loaded planes of FP32 weights. -/
def matrixCore (i : Instr) (h : HandleBits) (mpc : Nat) : Core :=
  let p := { Plane.reset with state := .loaded, kw := 2, weights := [(0, 0x3F800000), (1, 0x40000000)] }
  { computing with
    engM := { engWith [entryWith i [h] [0]] with mpc := BitVec.ofNat 32 mpc }
    matrix := { Matrix.reset with active := p, shadow := p }
    mem := memWith 0x100 8 0x4040000040000000 }
/-- A stream of two elements, one row. -/
theorem witness_MatrixStepResults_stream : ∀ e ∈ ([(.mms noHdr 1 0 1 0, 0), (.mmsz noHdr 1 0 4 0, 0), (.msclC noHdr 1 0, 0),
      (.msclR noHdr 1 0, 0), (.mza noHdr 0 0, 7), (.mrd noHdr 1 0 0 0, 0), (.mwr noHdr 1 0 0, 0)] : List (Instr × Nat)),
    (let c := matrixCore e.1 (rowHandle 0 0x100 2) e.2
     mayStep (devCore c) 0 && (match c.engM.queue.head? with
       | some x => headReady c c.engM x && (streamed c x e.2).isSome
       | none => false)) = true := by decide +kernel
/-- The first step of MWL and a later one, and MSCL.K. -/
theorem witness_MatrixStepResults_planes : ∀ e ∈ ([(.mwl noHdr 1, 0), (.mwl noHdr 1, 7), (.msclK noHdr 1, 0)] : List (Instr × Nat)),
    (let c := matrixCore e.1 (rowHandle 0 0x100 2) e.2
     mayStep (devCore c) 0 && (match c.engM.queue.head? with
       | some x => headReady c c.engM x && ((columnsLoaded c x e.2).isSome || (columnScales c x).isSome)
       | none => false)) = true := by decide +kernel
/-- R258, R260: 2 times 1 plus 3 times 2 from an empty tile. -/
theorem test_mmsz : (match exec (.mStep 0 0) (devCore (matrixCore (.mmsz noHdr 1 0 1 0) (rowHandle 0 0x100 2) 0)) with
    | .next t => readLE t.core.mem 0x80000 4 == 0x41000000
    | _ => false) = true := by decide +kernel
/-- MZA that has taken its 8 steps, and MWS behind it. -/
def swapCore : Core := { computing with
  engM := { engWith [entryWith (.mza noHdr 0 0) [] [], entryWith (.mws noHdr) [] []] with mpc := 8 }
  matrix := { Matrix.reset with shadow := { Plane.reset with state := .loaded } } }
theorem witness_MatrixStepResults_swap : (mayStep (devCore swapCore) 0 && swapAhead swapCore 1 &&
    (swapCore.engM.queue[1]?.map (fun x => x.handles.isEmpty)) == some true) = true := by
  decide +kernel
/-- R247, R256, R248: MWS behind it exchanges the planes, and both complete in one step. -/
theorem test_swap_ahead : (match exec (.mStep 0 1) (devCore swapCore) with
    | .next t => t.core.matrix.active.state == .loaded && (match exec (.mStep 0 0) t with
      | .next u => u.core.engM.done == 2 && u.core.engM.queue.isEmpty
      | _ => false)
    | _ => false) = true := by
  decide +kernel
theorem witness_LocalCopyStepResults : ∀ e ∈ ([(.xfill noHdr 1 3, 1), (.xcpy noHdr 1 2, 2)] : List (Instr × Nat)),
    (let x := entryWith e.1 (List.replicate e.2 (rowHandle 0 0x100 1)) [7]
     let c := { computing with engL := engWith [x] }
     mayStep (devCore c) 0 && headReady c c.engL x && c.engL.mpc == 0 && c.lmet.isNone && (afterCopy c x).isSome) =
      true := by decide +kernel

theorem witness_LocalCopyStepResults_many : ∀ e ∈ ([(.xfill noHdr 1 3, [rows2 0 0x2000 3], 0), (.xcpy noHdr 1 2, [rows2 0 0x2000 3, rows2 0 0x1000 3], 0),
      (.xtrn noHdr 1 2, [rowHandle 0 0x2000 2 + BitVec.ofNat 256 (2 * 2 ^ 40 + 8 * 2 ^ 72), rows2 0 0x1000 3], 0),
      (.xfill noHdr 1 3, [rowHandle 0 0x2000 200], 1)] : List (Instr × List HandleBits × Nat)),
    (let x := entryWith e.1 e.2.1 [7]
     let c := { computing with mem := memWith 0x1000 8 0x4040000040000000, engL := { engWith [x] with mpc := BitVec.ofNat 32 e.2.2 } }
     mayStep (devCore c) 0 && copyGoes c x && (copied c x e.2.2).isSome) = true := by decide +kernel
/-- R273: the transpose of a row of two. -/
theorem test_xtrn : (match exec (.lStep 0) (devCore { computing with
      mem := memWith 0x1000 8 0x0000000700000005
      engL := engWith [entryWith (.xtrn noHdr 1 2) [rows2 12 0x2000 1, rowHandle 12 0x1000 2] []] }) with
    | .next t => readLE t.core.mem 0x2000 4 == 5 && readLE t.core.mem 0x2040 4 == 7
    | _ => false) = true := by decide +kernel

/-- A core that holds an instruction for a reason. -/
def holding (c : Core) (i : Instr) (why : HoldReason) : State := devCore { c with
  held := some { instr := i, why := why, waits := [] } }
theorem witness_HoldsEnd : ∀ e ∈ ([(.tokenWaitSatisfied 0, holding computing (.nop noHdr) .tokens),
      (.dispatchQueueRoom 0, holding (handleCore (rowHandle 0 0x1000 1)) (.vabs noHdr 1 2) .room),
      (.fullEmptyWaitSatisfied 0, holding memCore (.ldW noHdr 0 4 12 0) .fullEmpty),
      (.qpopEntryArrives 0, holding sysCore (.qpop noHdr 4 1) .qpop),
      (.syncDrained 0, holding computing (.sync noHdr) .sync)] : List (Instr × State)),
    (frontOf e.1 == some 0 && frontFree e.2 0 && (match (e.2.select 0).core.held with
      | some x => x.instr.hdr.isSome && holdEnds e.1 (e.2.select 0).core x
      | none => false)) = true := by decide +kernel

/-! ## Harts (R376): encodings and results of the RISC-V specifications that it names -/

/-- Words of RV32IMC: li a0, 10; bnez a0, -20; mul a0, a0, a1; csrw mtvec, t0; c.addi16sp -16; c.lwsp ra, 12; c.jr ra. -/
theorem word_rv32 : rvDecode32 0x00A00513 = some (.opImm 0 false 10 0 10) ∧
    rvDecode32 0xFE0516E3 = some (.branch 1 10 0 (-20)) ∧
    rvDecode32 0x02B50533 = some (.mulDiv 0 10 10 11) ∧
    rvDecode32 0x30529073 = some (.csr 1 0 5 0x305) ∧
    rvDecode16 0x717D = some (.opImm 0 false 2 2 (-16)) ∧
    rvDecode16 0x40B2 = some (.load 2 1 2 12) ∧
    rvDecode16 0x8082 = some (.jalr 0 1 0) ∧ rvDecode16 0 = none := by decide +kernel

/-- The corners of DIV and REM, and MULH. -/
theorem test_rv32_div : rvMulDiv 4 7 0 = 0xFFFFFFFF ∧ rvMulDiv 6 7 0 = 7 ∧ rvMulDiv 4 0x80000000 0xFFFFFFFF = 0x80000000 ∧
    rvMulDiv 6 0xFFFFFFF9 2 = 0xFFFFFFFF ∧ rvMulDiv 1 0xFFFFFFFF 0xFFFFFFFF = 0 := by decide +kernel

/-- R376: a hart that runs takes the instruction at its PC, csrr a3, mhartid. -/
theorem test_hart_turn :
    (let s := State.reset
     let x : Hart := { Hart.reset with imem := writeLE [] 0 4 0xF14026F3 }
     match step { s with turns := [.hart 3], dist := { s.dist with run := true, harts := s.dist.harts.set 3 x } } with
     | .next t => (t.hart 3).reg 13 == 3 && (t.hart 3).pc == 4
     | _ => false) = true := by decide +kernel

/-! ## Steps of the agents that are due -/

/-- The header of an overlay that carries page 0, as bytes from the first. -/
def headerNum : Nat :=
  0x4C564F58 + 2 ^ 32 * 1 + 2 ^ 48 * 64 + 2 ^ 96 * 1 + 2 ^ 112 * 1 + 2 ^ 144 * 0xFFFF + 2 ^ 176 * 0xFFFF

/-- The address of staging offset 0. -/
def stgAddr : Nat := 3 * 2 ^ 62 + 2 ^ 56

/-- An exchanging core of context 1 with a begun transfer, beside a second member, both in the exchange. -/
def pairXfers (c d : Core) (l : List Xfer) : State :=
  { beside 1 { d with pst := .exchange, csr := { d.csr with phase := 1 } }
      (devDist { Distributor.reset with gangs := [gangOfTwo] }) with
    core := { c with
      pst := .exchange
      csr := { c.csr with phase := 1, gang := 0x800 }
      engE := engWith (l.map (·.entry))
      xfers := l }
    iris := { Iris.reset with phase := 1, inExchange := [0, 1], pmask := [0, 1] } }

/-- A core with 16 bytes in full granules at addresses. -/
def filled (c : Core) (l : List (Nat × Nat)) : Core := l.foldl (fun k q => k.storeLocal q.1 16 q.2) c

/-- A message of the peer reduction unit (R442). -/
def peerMsg (kind rank block offset failure : Nat) (data : List Byte) : PeerMsg :=
  { header := BitVec.ofNat 32 (kind + 4 * rank + 2 ^ 10 * block)
    payload := bytesOfNat 4 (offset + 2 ^ 24 * failure) ++ data, ep := false }

/-- Steps that meet the hypothesis of ExchangeSteps, one or more for each constructor. -/
theorem witness_ExchangeSteps : ∀ e ∈ ((
    let sig := entryWith (.xsig noHdr 1 0 0) [] [3, 1, 0]
    let ovl := entryWith (.xovl noHdr 1 0) [] [stgAddr, 0, 64]
    let h := rowHandle 0 0x100 4
    let put := entryWith (.xput noHdr 0 1 0 2) [h] [2 ^ 62 + 0x200, 0, 16]
    let put1 := entryWith (.xput noHdr 0 1 0 1) [h] [2 ^ 62 + 2 ^ 30 + 2 ^ 24 * 10 + 0x200, 0, 16]
    let get := entryWith (.xget noHdr 0 1 0 0) [h] [2 ^ 62 + 2 ^ 30 + 0x200, 0, 16]
    let bc := entryWith (.xbc noHdr 0 1 0 0) [h] [2 * 2 ^ 62 + 2 ^ 51 + 0x200, 0, 16]
    let ld := entryWith (.xld noHdr 0 1 0 1) [h] [stgAddr, 0, 16]
    let st := entryWith (.xst noHdr 0 1 0 2) [h] [stgAddr, 0x1000, 16]
    let gth := entryWith (.xgth noHdr 0 1 1 0) [h, rowHandle 12 0x300 1] [stgAddr, 0, 1]
    let ldg := entryWith (.xldg noHdr 0 1 0 0) [h] [2 * 2 ^ 62 + 2 ^ 51 + 0x200, 0, 16]
    let atm := entryWith (.xatmDev noHdr 0 1 1 0 0) [rowHandle 12 0x100 4] [0x1000, 0, 16]
    let enc := entryWith (.xenc noHdr 0 1 0 0) [rowHandle 14 0x100 8] [3 * 2 ^ 62 + 3 * 2 ^ 56, 0, 1]
    let dec := entryWith (.xdec noHdr 0 1 0) [rowHandle 14 0x100 8] [3 * 2 ^ 62 + 4 * 2 ^ 56, 0, 16]
    let base := Core.reset 0
    let two := filled base [(0x100, 0x3F8000004000000040400000)]
    let stage := fun (s : State) (v : Nat) => { s with map := { MapUnits.reset with
      staging := memWith 0 16 v, stgFull := [0], stgRng := [(0, 0x100)] } }
    let atPage := fun (x : Entry) => { begunWith x [0] with pages := [{ off := 0, len := 4, va := 0x1000, res := .ok 0x2000 true 0 }] }
    let coded := fun (e : Nat) (x : Codec) (s : State) => { s with codecs := State.reset.codecs.setIfInBounds e x }
    let session : Codec := { Codec.reset with en := true, size := 0x00800008 }
    let lau := entryWith (.xlaunch noHdr 0 1 0) [rowHandle 12 0x100 16] [0x1000, 0, 64]
    -- queue 9, whose QCB lies at 0x1000 of device memory, takes appends where its flags say so
    let launcher := exXfers [{ begunWith lau [0] with
      pages := [{ off := 0, len := 128, va := 0x1000, res := .ok 0x1000 false 0 }] }]
    let launching := fun (flags : Nat) =>
      let m : Mem := writeLE (writeLE (writeLE (writeLE [] 0x1000 8 0x8000) 0x1008 4 16) 0x1010 4 3) 0x101C 2 flags
      let q := { MapUnits.reset with gddr := writeLE m 0x5048 8 (2 ^ 63 + 0x1000) }
      { launcher with
        core := { launcher.core with mem := memWith 0x100 64 0x123456789, full := [16, 17, 18, 19] }
        dist := { Distributor.reset with qdir := 0x5000 }
        map := q }
    let rdev := entryWith (.xrdev noHdr 0 1 0 2) [rowHandle 0 0x100 4] [3 * 2 ^ 24, 0, 16]
    let linked := State.reset.ports.setIfInBounds 2 { (State.reset.port 2) with speed := 6, width := 8 }
    let sending := fun (ps : Table) (st : BlockState) =>
      let b : PeerBlock := { PeerBlock.reset with state := st, words := #v[0, 32, 0, 0, 0xFFFF, 2, 0] }
      { pairXfers two base [begunWith rdev [0]] with
        peer := { PeerUnit.reset with myrank := 0x100, rankPort := ps, blocks := [(3, b)] }
        ports := linked }
    let late := fun (s : State) => { s with iris := { s.iris with smask := [1] } }
    let first := begunWith { sig with xid := 5 } [0]
    let behind := { put1 with phase := 3 }
    [(.eInstructionBegin 0, exQueue [entryWith (.xarm noHdr 2 5) [] [2, 48]]),
     (.eInstructionBegin 0, exQueue [entryWith (.xarmImm noHdr 2) [] [2, 48]]),
     (.eInstructionBegin 0, exQueue [sig]),
     (.eInstructionBegin 0, { pairXfers two base [] with core := { (pairXfers two base []).core with engE := engWith [put1] } }),
     (.eInstructionBegin 0, late { pairXfers two base [] with core := { (pairXfers two base []).core with engE := engWith [put1] } }),
     (.eInstructionBegin 0, late { pairXfers two base [] with core := { (pairXfers two base []).core with engE := engWith [bc] } }),
     (.eInstructionBegin 0, exQueue [put1]),
     (.eInstructionBegin 0, { exQueue [behind] with core := { (exQueue [behind]).core with xfers := [first] } }),
     (.transferPieceLanding 0 1 0, pairXfers two base [first, begunWith behind [0]]),
     (.transferPieceLanding 0 0 0, pairXfers two base [{ begunWith put1 [0] with
        pages := [{ off := 0, len := 16, va := 0, res := .fail 10 }] }]),
     (.meshLinkUncorrectableError 0 1 0, pairXfers two base [first, begunWith behind [0]]),
     (.eInstructionBegin 0, exQueue [{ put with handles := [rowHandle 0 0xB0000 4] }]),
     (.eInstructionBegin 0, stage (exQueue [st]) 5),
     (.transferPieceLanding 0 0 0, exXfers [begunWith sig [0]]),
     (.transferPieceLanding 0 0 0, pairXfers two base [begunWith put1 [0]]),
     (.transferPieceLanding 0 0 0, pairXfers base (filled base [(0x200, 0x1234)]) [begunWith get [0]]),
     (.transferPieceLanding 0 0 65536, pairXfers two base [begunWith bc [0, 65536]]),
     (.transferPieceLanding 0 0 0, stage (pairXfers base base [begunWith ld [0]]) 0x12345),
     (.transferPieceLanding 0 0 0, pairXfers two base [begunWith st [0]]),
     (.transferPieceLanding 0 0 0, stage (pairXfers (filled base [(0x300, 0)]) base [begunWith gth [0]]) 0x12345),
     (.transferPieceLanding 0 0 0, pairXfers (filled base [(0x200, 0x3F800000)]) (filled base [(0x200, 0x40000000)])
       [begunWith ldg [0]]),
     (.transferPieceLanding 0 0 0, { pairXfers (filled base [(0x100, 5)]) base [atPage atm] with
        map := { MapUnits.reset with host := memWith 0x2000 4 7 } }),
     (.transferPieceLanding 0 0 0, coded 0 session (pairXfers (filled base [(0x100, 0x0403FFFF)]) base [begunWith enc [0]])),
     (.transferPieceLanding 0 0 0, coded 16 { session with planes := Vector.replicate 3 { PlaneQueue.reset with
        rows := [{ samples := [1, 2, 3, 4, 5, 6, 7, 8], last := false, short := false, time := 0 }] } }
        (pairXfers base base [begunWith dec [0]])),
     (.transferPieceLanding 0 0 0, { exXfers [{ begunWith ovl [0] with stage := 1 }] with
        map := { MapUnits.reset with staging := memWith 64 32 0x123456789ABCDEF, stgRng := [(0, 0x100)] }
        core := { (exXfers [{ begunWith ovl [0] with stage := 1 }]).core with
          overlay := some { mask := 2, exec := 0, check := 0, sum := 5 } } }),
     (.transferPieceLanding 0 0 0, launching 0), (.transferPieceLanding 0 0 0, launching 2),
     (.transferPieceLanding 0 0 0, sending [(0, 8)] .idle), (.transferPieceLanding 0 0 0, sending [(0, 8)] .collect),
     (.transferPieceLanding 0 0 0, sending [(0, 10)] .idle), (.transferPieceLanding 0 0 0, sending [] .idle),
     (.transferComplete 0, exXfers [begunWith sig []]),
     (.transferComplete 0, exXfers [begunWith st []]),
     (.transferComplete 0, exXfers [{ begunWith st [] with failed := true }]),
     (.transferComplete 0, exXfers [{ begunWith ldg [] with void := true }]),
     (.xwaitSatisfied 0, exQueue [entryWith (.xwaitL noHdr 2) [] [2]]),
     (.xwaitSatisfied 0, exQueue [entryWith (.xwait noHdr 1 0) [] [2 ^ 32 - 1]]),
     (.xfenceDone 0, exQueue [entryWith (.xfence noHdr 0) [] [0]]),
     (.xovlHeaderArrives 0, { exXfers [begunWith ovl []] with
        map := { MapUnits.reset with staging := memWith 0 64 headerNum, stgRng := [(0, 0x100)] } }),
     (.xovlImageComplete 0, { devCore { exchanging with
        engE := engWith [{ ovl with stage := .begun }], xfers := [{ begunWith ovl [] with stage := 1 }]
        overlay := some { mask := 2, exec := 2, check := 5, sum := 5 } } with
        map := { MapUnits.reset with stgRng := [(0, 0x100)] } }),
     (.meshLinkUncorrectableError 0 0 0, pairXfers two base [begunWith put1 [0]]),
     (.meshLinkUncorrectableError 0 0 0, sending [(0, 10)] .idle), (.meshLinkUncorrectableError 0 0 0, sending [(0, 8)] .collect),
     (.holdUntilEntryFree 0 .M, devCore { computing with
        engM := { engWith [entryWith (.mstat noHdr 1) [] []] with pushing := some (1, 0) } })]) : List (Instr × State)),
    (exchangeEvent e.1 e.2).isSome = true := by decide +kernel

/-- Steps that meet the hypothesis of MemoryPortSteps, one or more for each constructor. -/
theorem witness_MemoryPortSteps : ∀ e ∈ ((
    let tlb : List TlbEntry := [{ tlbEntry 0 5 0 0 with count := 3 }]
    let lau := entryWith (.xlaunch noHdr 0 1 0) [rowHandle 12 0x100 16] [0x1000, 0, 64]
    let st := entryWith (.xst noHdr 0 1 0 2) [rowHandle 0 0x100 4] [stgAddr, 0x1000, 16]
    let w : Walk := { unit := 0, asid := 0, va := 0x1000, pieces := 0, core := 0, chan := 0, id := 0 }
    let m := { MapUnits.reset with tlb := tlb }
    let waits := fun (x : Entry) (u : MapUnits) => { exXfers [{ begunWith x [0] with
        pages := [{ off := 0, len := 128, va := 0x1000, res := .waiting }] }] with map := { u with walks := [w] } }
    -- an ASID table at 0, a root at 0x10000, three tables below and a leaf for the page of virtual address 0
    let tables : Mem := writeLE (writeLE (writeLE (writeLE (writeLE [] 0 8 0x10001) 0x10000 8 0x20001) 0x20000 8 0x30001)
      0x30000 8 0x40001) 0x40000 8 0x50003
    let fillOne : Drain := { drainOne with pages := [{ off := 0, len := 16, va := 0, res := .ok 0x1000 true 0 }] }
    [(.walkEnd 0, devMap { MapUnits.reset with walks := [w] }),
     (.walkEnd 0, waits lau .reset), (.walkEnd 0, waits lau { MapUnits.reset with gddr := tables }),
     (.walkEnd 0, waits { lau with phase := 3 } { MapUnits.reset with fills := [fillOne] }),
     (.fillGranuleArrives 0, { devMap { MapUnits.reset with fills := [fillOne], backs := [drainOne] } with
        iris := { Iris.reset with phase := 2 } }),
     (.walkEnd 0, waits st { MapUnits.reset with gddr := writeLE tables 0x40000 8 0x50013 }),
     (.fillGranuleArrives 0, { devMap { MapUnits.reset with fills := [fillOne], host := memWith 0x1000 16 0x1234567 } with
        iris := { Iris.reset with phase := 2 } }),
     (.writeBackDrain 0, { devMap { MapUnits.reset with backs := [drainOne], staging := memWith 0 16 0x1234567, stgFull := [0] } with
        iris := { Iris.reset with phase := 2 } }),
     (.writeBackDrain 0, { devMap { MapUnits.reset with
        backs := [drainOne], staging := memWith 0 16 0x1234567, stgFull := [0], stgPoison := [1] } with
        iris := { Iris.reset with phase := 2 } }),
     (.shootdownPage 5, upTo 1 (devMap m)), (.shootdownPage 5, devMap m), (.shootdownPage 5, upTo 1 (devMap { m with sdBusy := true })),
     (.shootdownRange true 5, upTo 1 (devMap m)), (.shootdownAsid false 5, upTo 1 (devMap m)),
     (.shootdownAll false, upTo 1 (devMap m)), (.counterFlush, upTo 1 (devMap m)), (.counterFlush, devMap m),
     (.shootdownDone, devMap { m with sdBusy := true }),
     (.shootdownDrained, devMap { m with sdDone := true, sdBefore := [drainOne], sdStores := [(0, 0, 5)] }),
     (.sramBitError (.coreLocal 0 0x100 false), State.reset), (.sramBitError (.coreImem 3 0x100 false), State.reset),
     (.sramBitError (.coreImem 3 0x100 true), State.reset), (.sramBitError (.staging 0x100 true), State.reset),
     (.sramBitError (.staging 0x100 false), State.reset),
     (.registerParityError 0, devCore { computing with task := some taskOne }), (.registerParityError 0, State.reset)]) : List (Instr × State)),
    (memoryEvent e.1 e.2).isSome = true := by decide +kernel

/-- Steps that meet the hypothesis of IrisSteps, one or more for each constructor. -/
theorem witness_IrisSteps : ∀ e ∈ ((
    let i := { Iris.reset with pmask := [0] }
    let x := { i with phase := 1, inExchange := [0] }
    let rdy := { computing with pst := .ready, task := some taskOne }
    let xrdy := { exchanging with pst := .xready, task := some taskOne }
    let ends := { xrdy with held := some { instr := .sync noHdr, why := .sync, waits := [] }, pc := 0x100 }
    let put := entryWith (.xput noHdr 0 1 0 2) [rowHandle 0 0x100 4] [2 ^ 62 + 2 ^ 30 + 0x200, 0, 16]
    let flying := { exchanging with engE := engWith [put], xfers := [begunWith put [0]], task := some taskOne }
    let flagged := fun (s : State) => { s with dist := { s.dist with gangs := [{ gangOfTwo with members := [0], live := [0], flagged := true }] } }
    let due := { DebugCtx.reset with ckctl := 1, begun := some 0 }
    -- logical cores 0 and 1 on core 0 with K = 2; the ones named have ended
    let sliced := fun (l : NatSet) => { devIris { x with ictl := 1, sweep := some 0 } ends with
      dist := { Distributor.reset with
        mirror := [(0, 0x20001), (1, 0x120001)], gangs := [{ gangOfTwo with members := [0, 0], live := [0], ended := l }] } }
    let det := fun (s : State) => { s with debugUnit := { s.debugUnit with ctxs := (Vector.replicate 64 DebugCtx.reset).set 1 due } }
    [(.phaseAdvanceOdd, devIris i rdy),
     (.phaseAdvanceOdd, flagged (devIris i { rdy with iterMark := true })),
     (.phaseAdvanceOdd, det (devIris { i with ictl := 1 } rdy)),
     (.phaseAdvanceOdd, devIris { i with wtimer := 0x40000001, pmask := [] } computing),
     (.quietSweepBegin, devIris x xrdy),
     (.phaseAdvanceEven 5, devIris { x with sweep := some 0 } xrdy),
     (.phaseAdvanceEven 5, devIris { x with sweep := some 0 } ends),
     (.phaseAdvanceEven 5, sliced []), (.phaseAdvanceEven 5, sliced [1]),
     (.phaseBusDelivery 0, devIris { x with deliver := [0] } rdy),
     (.phaseBusDelivery 0, devIris { i with phase := 2, deliver := [0] } xrdy),
     (.phaseBusDelivery 0, devIris { x with deliver := [0], smask := [0] } computing),
     (.phaseBusDelivery 0, devIris { x with deliver := [0], smask := [0], slimNow := 1 } rdy),
     (.computeTimeoutExpiry, devIris { i with ctimer := 0x1000000 } rdy),
     (.computeTimeoutExpiry, devIris { i with ctimer := 0x1000000 } computing),
     (.computeTimeoutExpiry, beside 1 { Core.reset 1 with pst := .compute } (devIris { i with ctimer := 0x1000000, pmask := [0, 1] } rdy)),
     (.exchangeTimeoutExpiry, devIris { x with xtimer := 0x1000000 } exchanging),
     (.exchangeTimeoutExpiry, devIris { x with xtimer := 0x1000000 } flying),
     (.exchangeTimeoutExpiry, devIris { x with xtimer := 0x1000000, expiries := 1 } flying),
     (.watchdogExpiry, devIris { i with ictl := 1, wtimer := 0x40000000 } rdy),
     (.watchdogExpiry, devIris { i with ictl := 1, wtimer := 0x40000000 } { computing with task := some taskOne }),
     (.ictlWrite 1, State.reset), (.ictlWrite 1, upTo 2 State.reset), (.ictlWrite 1, upTo 2 (devIris i computing))]) : List (Instr × State)),
    (irisEvent e.1 e.2).isSome = true := by decide +kernel

/-- Steps that meet the hypothesis of DistributorSteps, one or more for each constructor. -/
theorem witness_DistributorSteps : ∀ e ∈ ((
    let d := Distributor.reset
    let g := { gangOfTwo with members := [0], live := [0], size := 1 }
    let node : Mem := writeLE (writeLE (writeLE [] 0x1000 1 3) 0x1002 2 2) 0x1004 4 2
    -- a task node whose last predecessor signals: its queue 9, whose QCB lies at 0x1800, has room
    let task : Mem := writeLE (writeLE (writeLE (writeLE (writeLE (writeLE (writeLE (writeLE [] 0x1000 1 1) 0x1002 2 2) 0x1004 4 1)
      0x1008 8 0x1800) 0x1010 8 0x3000) 0x1800 8 0x4000) 0x1808 4 16) 0x3000 8 0x123456789
    let dist := fun (x : Distributor) => upTo 1 (devDist x)
    let gddr := fun (m : Mem) (s : State) => ({ s with map := { MapUnits.reset with gddr := m } } : State)
    let directory : Mem := writeLE task 0x5048 8 (2 ^ 63 + 0x1800)
    -- a stream at 0x2000 with three rungs whose queue is 9
    let stream : Mem := writeLE (writeLE (writeLE (writeLE directory 0x201A 1 3) 0x2010 8 1000) 0x2028 4 9) 0x1828 8 0x2000
    let runs := fun (s : State) => upTo 2 { s with dist := { s.dist with run := true } }
    let upSt := fun (x : Distributor) => upTo 2 (devDist x)
    [(.qbell 9, upTo 1 State.reset), (.qbell 9, State.reset), (.grun 1, upTo 1 State.reset), (.grun 0x1000, gddr node (upTo 1 State.reset)),
     (.grun 0x1000, gddr node (runs State.reset)), (.grun 0x1000, runs (gddr directory (devDist { d with qdir := 0x5000 }))),
     (.preq 0, dist { d with gangs := [g] }), (.preq 0x10003, dist d), (.preqCancel 0, dist { d with gangs := [g] }),
     (.plshape 0x1FFFFF, dist d), (.plshape 0x1FFFFF, devDist d),
     (.lbgo, dist d), (.lbgo, upSt d), (.lbgo, upSt { d with ended := [(g, true)] }),
     (.launchEnterCompute, upSt { d with launch := some { gang := g, resume := true, idx := 0, endpc := 0x100 } }),
     (.residencyFilled 0, devDist { d with watches := [{ idx := 7, granules := [] }] }),
     (.dlw3Commit 5, dist { d with dlw := d.dlw.set 0 4, dlsize := 8 }), (.dlw3Commit 5, dist d),
     (.dlsizeWrite 5, dist { d with dlhead := 3 }), (.ssins 5, dist { d with sskey := 9 }),
     (.sspop, dist { d with sorter := [(7, 1, false), (5, 2, false), (5, 3, true)] }),
     (.ssdel 2, dist { d with sorter := [(7, 1, false), (5, 2, false), (5, 2, true)] }),
     (.slackneg, { devDist { d with sorter := [(7, 1, false), (5, 2, false)] } with time := 6 }),
     (.slackneg, runs { devDist { d with sorter := [(7, 1, false), (5, 2, false)] } with time := 6 }),
     (.slackneg, runs { gddr stream (devDist { d with qdir := 0x5000, sorter := [(7, 1, false), (5, 9, false)] }) with time := 6 }),
     (.streamRelease 0x2000, devMap { MapUnits.reset with gddr := memWith 0x2000 8 5 }),
     (.streamRelease 0x2000, runs (devMap { MapUnits.reset with gddr := memWith 0x2000 8 5 })),
     (.streamRelease 0x2000, runs (devMap { MapUnits.reset with gddr := writeLE (writeLE node 0x2000 8 5) 0x2030 8 0x1000 })),
     (.sbcfgWrite 1 0x80000000, upTo 1 State.reset), (.sbret 1 0, upTo 1 State.reset),
     (.sbpass 1, dist { d with boards := d.boards.set 1 { Scoreboard.reset with plane1 := [0] } }),
     (.sbrel 1, dist { d with boards := d.boards.set 1 { Scoreboard.reset with fifo := [0, 1] } }),
     (.mirrorWrite 5 0x00210007, upTo 1 State.reset), (.mirrorWrite 5 0x00210007, State.reset),
     (.mirrorWrite 0 0x00210007, upTo 1 (devCore { computing with task := some taskOne }))]) : List (Instr × State)),
    (distributorEvent e.1 e.2).isSome = true := by decide +kernel

/-- Steps that meet the hypothesis of HartSteps, one or more for each constructor. -/
theorem witness_HartSteps : ∀ e ∈ ((
    let d := { Distributor.reset with run := true }
    let h : Hart := { Hart.reset with events := [0x10000000200000003], imem := memWith 0 1 3, dmem := memWith 8 4 0xFFFF8001 }
    let w : AtWindow := { AtWindow.reset with addr := 0x1000, a := 0xFFFFFFFF, b := 9 }
    let s := devDist { d with harts := d.harts.set 2 h, windows := d.windows.set 2 w }
    [(.hartRun 1, upTo 2 State.reset), (.hartRun 1, upTo 1 State.reset), (.hartRun 1, State.reset), (.hartRun 0, upTo 2 s),
     (.devt0 2 5, s), (.devt0 3 5, s), (.dtime 2 5, { s with time := 0x100000002 }), (.dphase 2 5, s), (.atcmd 2 0, s),
     (.atcmd 2 4, s), (.atcmd 2 5, s), (.hartLoadStore 2 0x10000008 2 true 5 none, s),
     (.hartLoadStore 2 0x10000008 2 false 0 none, s), (.hartLoadStore 2 0x10000008 1 false 0 (some 0x123), s)]) : List (Instr × State)),
    (hartEvent e.1 e.2).isSome = true := by decide +kernel

/-- Steps that meet the hypothesis of CodecSteps, one or more for each constructor. -/
theorem witness_CodecSteps : ∀ e ∈ ((
    let x := { Codec.reset with en := true, size := 0x00800080, cctx := 1 }
    let small := { x with size := 0x00020002 }
    let row : PlaneRow := { samples := [5], last := true, short := true, time := 0 }
    let q := { PlaneQueue.reset with rows := [row] }
    let dev := fun (e : Nat) (x : Codec) (m : MapUnits) =>
      ({ devMap m with codecs := State.reset.codecs.setIfInBounds e x } : State)
    -- the page of virtual address 0 translates to system memory at 0x10000
    let tlb := fun (u : Nat) => [tlbEntry u 0 0 0x10080]
    let ring : Mem := writeLE (writeLE (writeLE (writeLE [] 0x10008 4 4) 0x10014 8 0x10000000100) 0x10020 2 0xFFFF) 0x10026 2 0xFFFF
    let full : Mem := writeLE ring 0x1000C 4 4
    -- a ring that asks for a message after two records or 1 microsecond
    let counts : Mem := writeLE (writeLE (writeLE ring 0x10020 2 3) 0x10022 2 2) 0x10024 2 1
    let due : PendingRecords := { asid := 0, ring := 0, engine := 0, count := 1, since := 0, vec := 3, ctime := 1 }
    let ring2 : Mem := writeLE (writeLE (writeLE (writeLE [] 0x10000 8 0x100) 0x10008 4 4) 0x1000C 4 1) 0x10105 1 2
    [(.codecEnable 0, State.reset), (.codecEnable 0, upTo 2 State.reset), (.codecDisable 0, upTo 2 (dev 0 x .reset)),
     (.encodeBlockRow 0, dev 0 { x with planes := Vector.replicate 3 q } { MapUnits.reset with tlb := tlb 16 }),
     (.encodeBlockRow 0, dev 0 { small with planes := Vector.replicate 3 q, gop := 1 } { MapUnits.reset with tlb := tlb 16 }),
     (.chunkWrite 0, dev 0 { x with stage := .chunks 2 false } { MapUnits.reset with tlb := tlb 16, host := ring }),
     (.chunkWrite 0, dev 0 { x with stage := .chunks 0 true } { MapUnits.reset with tlb := tlb 16, host := ring }),
     (.chunkWrite 0, dev 0 { x with stage := .chunks 2 false } { MapUnits.reset with tlb := tlb 16, host := full }),
     (.msixCoalesceTimeout 0, { dev 0 x .reset with time := 1000, ringPend := [due] }),
     (.msixCoalesceTimeout 0, { dev 0 x .reset with time := 1000, msixOpen := [3], ringPend := [{ due with ctime := 5 }, { due with engine := 3 }, due] }),
     (.chunkWrite 0, { dev 0 { x with stage := .chunks 2 false } { MapUnits.reset with tlb := tlb 16, host := counts } with
        ringPend := [{ due with engine := 3 }] }),
     (.chunkWrite 0, dev 0 { x with stage := .chunks 2 false } { MapUnits.reset with tlb := tlb 16, host := counts }),
     (.decodeChunk 0, dev 16 x { MapUnits.reset with tlb := tlb 32, host := ring2 }),
     (.decodeChunk 0, dev 16 x { MapUnits.reset with tlb := tlb 32, host := writeLE ring2 0x10105 1 0 }),
     (.decoderRowOutput 0, dev 16 { x with ready := [false] } .reset)]) : List (Instr × State)),
    (codecEvent e.1 e.2).isSome = true := by decide +kernel

/-- Steps that meet the hypothesis of PortSteps, one or more for each constructor. -/
theorem witness_PortSteps : ∀ e ∈ ((
    let s := { upTo 2 State.reset with numVfs := 2 }
    let g := { s with map := { MapUnits.reset with gddr := memWith 0x100 8 0x1122334455667788 } }
    let b : PeerBlock := { PeerBlock.reset with state := .collect, words := #v[0, 32, 0, 0, 0xFFFF, 2, 0] }
    let blocks := fun (x : PeerBlock) => ({ s with peer := { PeerUnit.reset with blocks := [(3, x)] } } : State)
    let bs := blocks b
    let signalling := blocks { b with words := #v[0, 32, 0, 0, 5, 2, 0] }
    let msg := peerMsg 0 1 3 16 0 [1, 2, 3]
    -- a block of 16 bytes of FP32 sums that has the bytes of rank 0 and its own slot 5
    let linked := s.ports.setIfInBounds 2 { (State.reset.port 2) with speed := 6, width := 8 }
    let joining := { blocks { b with words := #v[0, 16, 0, 0x100, 5, 2, 0], arrived := List.range 16, bytes := memWith 0 16 0x3F800000 } with
      ports := linked
      map := { MapUnits.reset with stgRng := [(0, 0x100)] } }
    let w : Contribution := { core := 0, chan := 0, id := 0, piece := 0, block := 3, offset := 16 }
    let rd := entryWith (.xrdev noHdr 0 1 0 0) [rowHandle 0 0x100 4] [0, 0, 16]
    let awaits := { exXfers [{ begunWith rd [] with acks := [0] }] with
      peer := { PeerUnit.reset with waiting := [w] }, mgmt := s.mgmt }
    let dir : Mem := writeLE (writeLE [] (8 * 9) 8 (2 ^ 63 + 0x1000)) 0x101A 1 1
    [(.pcieMemoryRequest { fn := 0, bar := 2, off := 0x100, n := 4, data := none, relaxed := false, ep := false }, g),
     (.pcieMemoryRequest { fn := 0, bar := 2, off := 0x100, n := 4, data := none, relaxed := false, ep := false }, State.reset),
     (.pcieMemoryRequest { fn := 0, bar := 2, off := 2 ^ 60, n := 4, data := none, relaxed := false, ep := false }, g),
     (.pcieMemoryRequest { fn := 0, bar := 2, off := 0x102, n := 2, data := some [1, 0], relaxed := false, ep := false }, g),
     (.pcieAtomicop { fn := 0, bar := 2, off := 0x100, op := .fetchAdd, size := 8, a := 5, b := 0 }, g),
     (.pcieAtomicop { fn := 0, bar := 2, off := 0x100, op := .cas, size := 4, a := 0x55667788, b := 6 }, g),
     (.pcieAtomicop { fn := 0, bar := 4, off := 0x100, op := .cas, size := 4, a := 5, b := 6 }, upTo 2 (devCore { computing with task := some taskOne })),
     (.pcieAtomicop { fn := 65, bar := 4, off := 0x100, op := .swap, size := 16, a := 5, b := 6 }, upTo 2 (devCore { computing with task := some taskOne })),
     (.pcieAtomicop { fn := 0, bar := 4, off := 0x100100, op := .swap, size := 4, a := 5, b := 6 }, upTo 2 (devCore computing)),
     (.vqbell 1 9, { s with map := { MapUnits.reset with gddr := dir } }),
     (.linkTraining 2 6 8, s), (.linkTraining 0 7 16, s), (.linkDown 2, s), (.pcieConfigurationRequest (.numVfs 3), s),
     (.pcieConfigurationRequest (.numVfs 64), s), (.pcieConfigurationRequest (.mask 0 5 false), { s with msixPend := [5] }),
     (.pcieConfigurationRequest (.mask 1 31 true), { s with msixOpen := [2079] }),
     (.pcieConfigurationRequest (.mask 3 0 false), s), (.pcieConfigurationRequest (.mask 0 2048 false), s),
     (.pcieConfigurationRequest (.pending 1), { s with msixPend := [5, 2079] }), (.pcieConfigurationRequest (.pending 3), s),
     (.peerBlockArm 3, blocks { b with state := .idle }), (.peerBlockArm 3, bs), (.peerBlockArm 3, State.reset),
     (.peerBlockCancel 3, bs), (.peerBlockCancel 3, State.reset),
     (.peerContrib 2 msg, bs), (.peerContrib 2 (peerMsg 3 1 3 16 0 [1]), bs), (.peerContrib 2 msg, blocks { b with state := .idle }),
     (.peerContrib 2 msg, blocks { b with state := .done }), (.peerContrib 2 (peerMsg 0 1 3 0 0 (bytesOfNat 16 0x40400000)), joining),
     (.peerContrib 2 (peerMsg 0 1 3 0 0 (bytesOfNat 16 0x40400000)), { joining with peer := { joining.peer with rankPort := [(0, 8)] } }),
     (.peerContrib 2 { peerMsg 0 1 3 0 0 (bytesOfNat 16 0x40400000) with ep := true }, { joining with peer := { joining.peer with
        rankPort := [(0, 8), (1, 10)], rankBase := [(1, 0x10000)], myrank := 0x100 } }), (.peerContrib 2 (peerMsg 0 2 3 16 0 [1]), bs),
     (.peerAck 2 (peerMsg 1 1 3 16 0 []), awaits), (.peerAck 2 (peerMsg 1 1 3 16 6 []), awaits), (.peerAck 2 (peerMsg 1 1 3 17 0 []), awaits),
     (.peerDone 2 (peerMsg 2 1 3 0 0 []), bs), (.peerDone 2 (peerMsg 2 1 3 0 0 []), signalling),
     (.peerDone 2 (peerMsg 2 1 4 0 0 []), bs)]) : List (Instr × State)),
    (portEvent e.1 e.2).isSome = true := by decide +kernel

/-- Steps that meet the hypothesis of DebugSteps, one or more for each constructor. -/
theorem witness_DebugSteps : ∀ e ∈ ((
    let s := upTo 1 { devDist { Distributor.reset with contexts := liveContexts } with
      core := { computing with task := some taskOne } }
    let halted := { s with core := { s.core with halted := true } }
    let st : Stepping := { deep := false, host := true, retired := true, tokens := [] }
    let rep := fun (e : Engine) => { e with frozen := true, report := some { code := 0x0A, sub := 2, etval := 5 } }
    let stepping := fun (x : Stepping) => devCore { computing with dbg := { CoreDebug.reset with stepping := some x } }
    let tracing := { s with core := { s.core with dbg := { CoreDebug.reset with fifo := [5, 6] }, csr := { Csrs.reset with tracectl := 1 } } }
    [(.dcmdHalt 1, s), (.dcmdHalt 1, State.reset), (.dcmdHalt 0x1000001, { s with debugUnit := { DebugUnit.reset with ctx := 1 } }),
     (.dcmdResume 2, halted), (.dcmdResume 2, { s with core := { s.core with dbg := { CoreDebug.reset with stepping := some st } } }),
     (.dcmdStep 3, halted), (.dcmdStepD 4, halted),
     (.stepStop 0, stepping st), (.stepStop 0, stepping { st with host := false, deep := true }),
     (.stopArm 0x10001, s), (.stopArm 0x10001, State.reset),
     (.stopFires 0, { s with debugUnit := { DebugUnit.reset with
        ctx := 1, armed := true, cnt := 0, ctxs := (Vector.replicate 64 DebugCtx.reset).set 1 { DebugCtx.reset with runs := [(0, 1)] } } }),
     (.debugWindowAccess 0 0x100 4 none, { halted with core := { halted.core with mem := memWith 0x100 4 0x12345678 } }),
     (.debugWindowAccess 0 0x100 4 (some 0x12345678), halted),
     (.traceRecordWrite 0, { tracing with map := { MapUnits.reset with tlb := [tlbEntry 0 0 0 0x10010] } }),
     (.traceRecordWrite 0, { tracing with map := { MapUnits.reset with tlb := [tlbEntry 0 0 0 0x10000] } }),
     (.impreciseReportTaken 0, devCore { computing with engM := rep .idle, engE := rep .idle }),
     (.unallocatedWord 2 0x12345678, s), (.instructionFetchFault 1 .notExecutable, s), (.instructionFetchFault 1 .poisoned, s)]) : List (Instr × State)),
    (debugEvent e.1 e.2).isSome = true := by decide +kernel

/-- Steps that meet the hypothesis of ManagementSteps, one or more for each constructor. -/
theorem witness_ManagementSteps : ∀ e ∈ ((
    let up := fun (n : Nat) => upTo n State.reset
    let busy := fun (n k : Nat) => ({ up n with mgmt := { (up n).mgmt with mbBusy := some k } } : State)
    let spdm := { State.reset with mgmt := { Mgmt.reset with inReset := false, spdm := { version := true, caps := true, algs := true } } }
    let work : StageWork := { selfTest := true, training := true, microcode := true, repairs := [7], disabled := [9] }
    let works := fun (w : StageWork) (s : State) => ({ s with mgmt := { s.mgmt with work := w } } : State)
    let held := { up 2 with core := { computing with task := some taskOne } }
    [(.resetRelease, State.reset), (.resetRelease, up 0), (.stage1Entry, up 0), (.stage2Entry, works work (up 1)),
     (.stage2Entry, works { work with selfTest := false } (up 1)), (.stage2Entry, works { work with microcode := false } (up 1)),
     (.stage2Entry, up 0), (.loadfw, busy 0 1), (.loadfw, up 0), (.writefw, busy 0 2),
     (.loaduc, busy 2 3), (.setowner, busy 2 4), (.mailboxReset, { held with mgmt := { held.mgmt with mbBusy := some 5 } }),
     (.resetAssertion, up 2), (.getVersion, up 0), (.getVersion, State.reset),
     (.getCapabilities, spdm), (.negotiateAlgorithms [65], spdm), (.negotiateAlgorithms [1], spdm), (.getDigests, spdm), (.getCertificate 0, spdm),
     (.challenge [1], spdm), (.getMeasurements 1 [1], spdm), (.getMeasurements 6 [1], spdm),
     (.powerSample 3000001, up 2), (.powerSample 2999000, up 2), (.powerSample 0, up 2), (.railOvercurrent .vcore ⟨6001, 0⟩, up 2),
     (.railOvercurrent .vio ⟨67, 10⟩, held), (.railOvercurrent .vaux ⟨10, 10⟩, up 2), (.overcurrentRequestEnd, up 2),
     (.overcurrentRequestEnd, { up 2 with power := { Power.reset with currentFrames := 1, reqCurrent := 8 } }),
     (.thermalLimit 101, up 2), (.thermalLimit 115, held),
     (.droopAlarm ⟨0, 459⟩, up 2), (.droopAlarmDeassert ⟨0, 460⟩, devCore { computing with matrix := { Matrix.reset with alarm := true } }),
     (.halfArraySpanEnd 0, devCore { computing with matrix := { Matrix.reset with span := 1 } }),
     (.registerWrite 0x460000000010 5, up 2), (.registerWrite 0x460000000010 5, up 1), (.registerWrite 0x46000000001C 0x105, up 2)]) : List (Instr × State)),
    (managementEvent e.1 e.2).isSome = true := by decide +kernel

/-- CTXKILL meets the hypothesis of DistributorSteps. -/
theorem witness_DistributorSteps_kill : ∀ e ∈ ((
    [(.ctxkill 1, upTo 1 { devDist { Distributor.reset with contexts := liveContexts, qdir := 0x5000 } with
      core := { computing with task := some taskOne }
      map := { MapUnits.reset with gddr := writeLE (writeLE (writeLE (writeLE (writeLE (writeLE [] 0x5048 8 (2 ^ 63 + 0x1800)) 0x1800 8 0x4000)
        0x1808 4 16) 0x1810 4 1) 0x181A 1 1) 0x403C 2 5 } })]) : List (Instr × State)),
    (distributorEvent e.1 e.2).isSome = true := by decide +kernel

/-- A launch that LBGO begins (R388): context 1, a record at 0x3000 whose overlay carries no page, one member. -/
theorem witness_DistributorSteps_launch : ∀ e ∈ (([(.lbgo, { devMap { MapUnits.reset with
        gddr := writeLE (writeLE (writeLE (writeLE (writeLE (writeLE (writeLE [] 0x1000 8 (2 ^ 63 + 0x2000)) 0x2018 2 5)
          0x201A 1 1) 0x3010 8 0x4000) 0x4000 8 (0x4C564F58 + 2 ^ 32 + 2 ^ 54)) 0x4012 2 0xFFFF) 0x4016 2 0xFFFF
        tlb := [{ unit := unitOf 0x4000, asid := 5, va := 0, size := 0x10000, leafAddr := 0, leaf := 3, shoff := 0
                  count := 0, anchor := false }] } with
      dist := { Distributor.reset with qdir := 0x1000, lbrec := 0x3000, contexts := liveContexts } })]) :
      List (Instr × State)), (distributorEvent e.1 e.2).isSome = true := by decide +kernel

end Sys2Proof.Tests
end

section
/-! PROOFS. Scalar registers, register groups and predicates: what is read after a write (R14, R16, R17). -/

namespace Sys2Proof.Machine

/-- Read-back of the scalar registers other than s0 (R14). -/
@[simp] theorem Core.reg_setReg_same (c : Core) {n : Nat} (v : Word) (h0 : n ≠ 0) (hn : n < 64) :
    (c.setReg n v).reg n = v := by
  simp [Core.reg, Core.setReg, h0, hn]

/-- Read-back of the predicates other than p0 (R17). -/
@[simp] theorem Core.pred_setPred_same (c : Core) {n : Nat} (b : Bool) (h0 : n ≠ 0) (hn : n < 8) :
    (c.setPred n b).pred n = b := by
  simp [Core.pred, Core.setPred, h0, hn]

/-- Registers written from s0 on lose their first word; the others go to s1 and up (R16). -/
theorem Core.setRegsFrom_zero (c : Core) (k v : Nat) :
    c.setRegsFrom 0 (k + 1) v = c.setRegsFrom 1 k (v / 2 ^ 32) := by
  rw [Core.setRegsFrom, Core.setReg_zero]

/-- A run of one register is that register's write. -/
theorem Core.setRegsFrom_one (c : Core) (n v : Nat) :
    c.setRegsFrom n 1 v = c.setReg n (BitVec.ofNat 32 v) := by
  rw [Core.setRegsFrom, Core.setRegsFrom]

/-- A 64-bit write to s0.d is a write of its high word to s1 (the example of R16). -/
theorem Core.setGroup_zero_one (c : Core) (v : Nat) :
    c.setGroup 0 1 v = c.setReg 1 (BitVec.ofNat 32 (v / 2 ^ 32)) := by
  calc c.setGroup 0 1 v
    _ = c.setRegsFrom 0 (1 + 1) v := rfl
    _ = c.setRegsFrom 1 1 (v / 2 ^ 32) := c.setRegsFrom_zero 1 v
    _ = c.setReg 1 (BitVec.ofNat 32 (v / 2 ^ 32)) := c.setRegsFrom_one 1 (v / 2 ^ 32)

/-- Settles O7: reads and writes of s0 and p0 by their equations, the other registers and predicates by read-back, and
s0.d as a write of s1. -/
theorem constantRegisters : Obligations.ConstantRegisters := by
  intro c v b n w x
  refine ⟨c.reg_zero, c.setReg_zero v, c.pred_zero, c.setPred_zero b, (c.setGroup n w x).reg_zero, ?_, ?_, ?_⟩
  · exact fun h0 hn => c.reg_setReg_same v h0.ne' hn
  · exact fun h0 hn => c.pred_setPred_same b h0.ne' hn
  · intro _
    rw [Core.setGroup_zero_one, Core.reg_setReg_same _ _ (by decide) (by decide)]

end Sys2Proof.Machine
end

section
/-! PROOFS. Scalar instructions: what a ready register cell leaves, by its shape, and the results of integer arithmetic
(R145, R147, R157). -/

namespace Sys2Proof.Machine
open Sys2Proof.Claims

/-! ## Writes of register groups (R15, R16) -/

/-- A group of k registers holds a number below 2^(32 k). -/
theorem Core.regsFrom_lt (c : Core) (n k : Nat) : c.regsFrom n k < 2 ^ (32 * k) := by
  induction k generalizing n with
  | zero => simp [Core.regsFrom]
  | succ k ih =>
    have hlow := (c.reg n).isLt
    have hhigh := ih (n + 1)
    rw [Core.regsFrom, Nat.mul_succ, Nat.pow_add]
    omega

/-- A group of width w holds a number of its 32 * 2^w bits. -/
theorem Core.group_lt (c : Core) (n w : Nat) : c.group n w < 2 ^ (32 * 2 ^ w) := c.regsFrom_lt n (2 ^ w)

/-- A write of k registers takes the low 32 k bits of the value. -/
theorem Core.setRegsFrom_mod (c : Core) (n k v : Nat) :
    c.setRegsFrom n k (v % 2 ^ (32 * k)) = c.setRegsFrom n k v := by
  induction k generalizing c n v with
  | zero => rfl
  | succ k ih =>
    have hpow : 2 ^ (32 * (k + 1)) = 2 ^ 32 * 2 ^ (32 * k) := by rw [← Nat.pow_add]; congr 1; omega
    have hlow : BitVec.ofNat 32 (v % 2 ^ (32 * (k + 1))) = BitVec.ofNat 32 v :=
      BitVec.eq_of_toNat_eq (by simp only [BitVec.toNat_ofNat, hpow, Nat.mod_mul_right_mod])
    rw [Core.setRegsFrom, Core.setRegsFrom, hlow, hpow, Nat.mod_mul_right_div_self, ih]

/-- A write of a group depends on the value's low bits alone. -/
theorem Core.setGroup_congr (c : Core) (n w : Nat) {v v' : Nat}
    (h : v % 2 ^ (32 * 2 ^ w) = v' % 2 ^ (32 * 2 ^ w)) : c.setGroup n w v = c.setGroup n w v' := by
  rw [Core.setGroup, Core.setGroup, ← Core.setRegsFrom_mod, h, Core.setRegsFrom_mod]

/-- A write of width 0 is a register's write. -/
theorem Core.setGroup_width_zero (c : Core) (n v : Nat) : c.setGroup n 0 v = c.setReg n (BitVec.ofNat 32 v) :=
  c.setRegsFrom_one n v

/-! ## Ready cells retire with their result -/

section Shapes
variable {i : Instr} {h : Hdr} {s : State}

/-- A scalar word that is ready, whose body retires in one core cycle. -/
theorem scalar_ready {body : Core → Eff} {c : Core} (hr : ready s.core i h = true) (hb : body s.core = .retire c 1) :
    scalar i h body s = .next { s with core := s.core.retireFrom h 1 c } := by
  obtain ⟨hguard, hwaits⟩ := Bool.and_eq_true_iff.mp hr
  exact scalar_retire i h body s c 1 hguard hwaits hb

/-- A ready cell over two groups writes any value that agrees with its own in the bits of the group. -/
theorem groupOp_ready {w : Nat} {d a b : BitVec 6} {f : Nat → Nat → Nat → Nat} {v : Nat}
    (hr : ready s.core i h = true)
    (hv : f (32 * 2 ^ w) (s.core.group a.toNat w) (s.core.group b.toNat w) % 2 ^ (32 * 2 ^ w) = v % 2 ^ (32 * 2 ^ w)) :
    groupOp i h w d a b f s = .next { s with core := s.core.retireFrom h 1 (s.core.setGroup d.toNat w v) } := by
  rw [← s.core.setGroup_congr d.toNat w hv]
  exact scalar_ready hr rfl

/-- A ready cell whose body writes one register writes its result as a number. -/
theorem scalar_setReg_ready {d : BitVec 6} {f : Core → Word} {v : Nat} (hr : ready s.core i h = true)
    (hv : f s.core = BitVec.ofNat 32 v) :
    scalar i h (fun c => .retire (c.setReg d.toNat (f c)) 1) s =
      .next { s with core := s.core.retireFrom h 1 (s.core.setGroup d.toNat 0 v) } := by
  rw [Core.setGroup_width_zero, ← hv]
  exact scalar_ready hr rfl

theorem wordOp_ready {d a b : BitVec 6} {f : Word → Word → Word} {v : Nat} (hr : ready s.core i h = true)
    (hv : f (s.core.reg a.toNat) (s.core.reg b.toNat) = BitVec.ofNat 32 v) :
    wordOp i h d a b f s = .next { s with core := s.core.retireFrom h 1 (s.core.setGroup d.toNat 0 v) } :=
  scalar_setReg_ready hr hv

theorem unaryOp_ready {d a : BitVec 6} {f : Word → Word} {v : Nat} (hr : ready s.core i h = true)
    (hv : f (s.core.reg a.toNat) = BitVec.ofNat 32 v) :
    unaryOp i h d a f s = .next { s with core := s.core.retireFrom h 1 (s.core.setGroup d.toNat 0 v) } :=
  scalar_setReg_ready hr hv

theorem immOp_ready {d a : BitVec 6} {f : Word → Word} {v : Nat} (hr : ready s.core i h = true)
    (hv : f (s.core.reg a.toNat) = BitVec.ofNat 32 v) :
    immOp i h d a f s = .next { s with core := s.core.retireFrom h 1 (s.core.setGroup d.toNat 0 v) } :=
  scalar_setReg_ready hr hv

end Shapes

/-! ## Words as numbers -/

/-- sx(v, 32) of a word is its signed value. -/
theorem sx_toNat (x : Word) : sx x.toNat 32 = x.toInt := by
  have hx := x.isLt
  rw [sx, BitVec.toInt_eq_toNat_cond, Nat.mod_eq_of_lt hx]
  split <;> split <;> omega

/-- The word of an integer's 32-bit pattern. -/
theorem ofNat_pat32 (v : Int) : BitVec.ofNat 32 (pat32 v) = BitVec.ofInt 32 v := by
  apply BitVec.eq_of_toNat_eq
  rw [BitVec.toNat_ofNat, BitVec.toNat_ofInt, pat32]
  omega

theorem shiftLeft_eq_ofNat (x : Word) (n : Nat) : x <<< n = BitVec.ofNat 32 (x.toNat * 2 ^ n % 2 ^ 32) :=
  BitVec.eq_of_toNat_eq (by simp [Nat.shiftLeft_eq])

theorem ushiftRight_eq_ofNat (x : Word) (n : Nat) : x >>> n = BitVec.ofNat 32 (x.toNat / 2 ^ n) := by
  rw [← Nat.shiftRight_eq_div_pow, ← BitVec.toNat_ushiftRight, BitVec.ofNat_toNat, BitVec.setWidth_eq]

theorem sshiftRight_eq_ofNat (x : Word) (n : Nat) :
    x.sshiftRight n = BitVec.ofNat 32 (pat32 (sx x.toNat 32 / 2 ^ n)) := by
  rw [ofNat_pat32, sx_toNat, BitVec.sshiftRight, Int.shiftRight_eq_div_pow]
  push_cast
  rfl

theorem rotateRight_eq_ofNat (x : Word) {n : Nat} (hn : n < 32) :
    x.rotateRight n = BitVec.ofNat 32 (x.toNat / 2 ^ n ||| x.toNat * 2 ^ (32 - n) % 2 ^ 32) := by
  rw [BitVec.rotateRight_def, Nat.mod_eq_of_lt hn, ushiftRight_eq_ofNat, shiftLeft_eq_ofNat, BitVec.ofNat_or]

theorem minSigned_eq_ofNat (x y : Word) :
    (if x.toInt ≤ y.toInt then x else y) = BitVec.ofNat 32 (pat32 (min (sx x.toNat 32) (sx y.toNat 32))) := by
  rw [ofNat_pat32, sx_toNat, sx_toNat, min_def]
  split <;> rw [BitVec.ofInt_toInt]

theorem maxSigned_eq_ofNat (x y : Word) :
    (if x.toInt ≤ y.toInt then y else x) = BitVec.ofNat 32 (pat32 (max (sx x.toNat 32) (sx y.toNat 32))) := by
  rw [ofNat_pat32, sx_toNat, sx_toNat, max_def]
  split <;> rw [BitVec.ofInt_toInt]

theorem minUnsigned_eq_ofNat (x y : Word) :
    (if x.toNat ≤ y.toNat then x else y) = BitVec.ofNat 32 (min x.toNat y.toNat) := by
  rw [min_def]
  split <;> simp

theorem maxUnsigned_eq_ofNat (x y : Word) :
    (if x.toNat ≤ y.toNat then y else x) = BitVec.ofNat 32 (max x.toNat y.toNat) := by
  rw [max_def]
  split <;> simp

/-- The difference modulo 2^n of two numbers below 2^n. -/
theorem sub_mod_eq {m x y : Nat} (hy : y < m) :
    (x + m - y) % m = (((x : Int) - y) % m).toNat % m := by
  have hcast : ((x + m - y : Nat) : Int) = (x : Int) - y + m := by omega
  have hmod : (((x + m - y) % m : Nat) : Int) = ((x : Int) - y) % m := by
    rw [Int.natCast_mod, hcast, Int.add_emod_right]
  rw [← hmod, Int.toNat_natCast, Nat.mod_mod]

/-! ## Immediates (R74, R75) -/

/-- The immediate of an SI cell, with and without a LIMM. -/
theorem immSi_eq_ofNat (h : Hdr) (k : BitVec 9) : immSi h k = BitVec.ofNat 32 (immediate h k) := by
  unfold immSi immediate
  cases h.limm with
  | none =>
    have hsx : sx k.toNat 9 = k.toInt := by
      have hk := k.isLt
      rw [sx, BitVec.toInt_eq_toNat_cond, Nat.mod_eq_of_lt hk]
      split <;> split <;> omega
    simp only [ofNat_pat32, hsx]
    rfl
  | some v => exact BitVec.eq_of_toNat_eq (by simp)

/-- The immediate is a 32-bit number. -/
theorem immSi_toNat (h : Hdr) (k : BitVec 9) : (immSi h k).toNat = immediate h k := by
  have hlt : immediate h k < 2 ^ 32 := by
    unfold immediate
    split
    · unfold pat32
      omega
    · exact Nat.mod_lt _ (by decide)
  rw [immSi_eq_ofNat, BitVec.toNat_ofNat, Nat.mod_eq_of_lt hlt]

/-! ## The arithmetic cells -/

/-- The cells of R145, R147 and R157 answer the write of their row. -/
theorem exec_of_arithResult {i : Instr} {s : State} {r : RegWrite} (hres : arithResult i s.core = some r)
    (hr : ready s.core i r.hdr = true) :
    exec i s = .next { s with core := s.core.retireFrom r.hdr 1 (s.core.setGroup r.dest r.width r.value) } := by
  unfold arithResult at hres
  dsimp only at hres
  split at hres <;> cases hres
  · change execAdd _ _ _ _ _ s = _
    exact groupOp_ready hr (Nat.mod_mod _ _).symm
  · change execSub _ _ _ _ _ s = _
    exact groupOp_ready hr (sub_mod_eq (s.core.group_lt _ _))
  · change execAnd _ _ _ _ _ s = _
    exact groupOp_ready hr rfl
  · change execOr _ _ _ _ _ s = _
    exact groupOp_ready hr rfl
  · change execXor _ _ _ _ _ s = _
    exact groupOp_ready hr rfl
  · change execAndn _ _ _ _ _ s = _
    exact groupOp_ready hr rfl
  · change execShl _ _ _ _ s = _
    exact wordOp_ready hr (shiftLeft_eq_ofNat _ _)
  · change execShr _ _ _ _ s = _
    exact wordOp_ready hr (ushiftRight_eq_ofNat _ _)
  · change execSra _ _ _ _ s = _
    exact wordOp_ready hr (sshiftRight_eq_ofNat _ _)
  · change execRot _ _ _ _ s = _
    exact wordOp_ready hr (rotateRight_eq_ofNat _ (Nat.mod_lt _ (by decide)))
  · change execMin _ _ _ _ s = _
    exact wordOp_ready hr (minSigned_eq_ofNat _ _)
  · change execMax _ _ _ _ s = _
    exact wordOp_ready hr (maxSigned_eq_ofNat _ _)
  · change execMinu _ _ _ _ s = _
    exact wordOp_ready hr (minUnsigned_eq_ofNat _ _)
  · change execMaxu _ _ _ _ s = _
    exact wordOp_ready hr (maxUnsigned_eq_ofNat _ _)
  · change execSel _ _ _ _ _ _ s = _
    exact scalar_ready hr (by dsimp only; split <;> rfl)
  · change execAddi _ _ _ _ s = _
    exact immOp_ready hr (by rw [immSi_eq_ofNat]; exact BitVec.eq_of_toNat_eq (by simp))
  · change execAndi _ _ _ _ s = _
    exact immOp_ready hr (by simp [immSi_eq_ofNat, BitVec.ofNat_and])
  · change execOri _ _ _ _ s = _
    exact immOp_ready hr (by simp [immSi_eq_ofNat, BitVec.ofNat_or])
  · change execXori _ _ _ _ s = _
    exact immOp_ready hr (by simp [immSi_eq_ofNat, BitVec.ofNat_xor])
  · change execShli _ _ _ _ s = _
    exact immOp_ready hr (shiftLeft_eq_ofNat _ _)
  · change execShri _ _ _ _ s = _
    exact immOp_ready hr (ushiftRight_eq_ofNat _ _)
  · change execSrai _ _ _ _ s = _
    exact immOp_ready hr (sshiftRight_eq_ofNat _ _)
  · change execMovi _ _ _ s = _
    exact scalar_setReg_ready hr (immSi_eq_ofNat _ _)

/-- Settles O9: each cell by its own row, over the shape of its operation. -/
theorem arithmeticResults : Obligations.ArithmeticResults :=
  ⟨fun _ _ _ => exec_of_arithResult, rfl⟩

end Sys2Proof.Machine
end

section
/-! PROOFS. Multiplication and division on all operands (R148, R149). -/

namespace Sys2Proof.Machine
open Sys2Proof.Claims

theorem mul_eq_ofNat (x y : Word) : x * y = BitVec.ofNat 32 (x.toNat * y.toNat % 2 ^ 32) :=
  BitVec.eq_of_toNat_eq (by simp)

theorem mulHigh_eq_ofNat (x y : Word) :
    BitVec.ofInt 32 (x.toInt * y.toInt / 2 ^ 32) =
      BitVec.ofNat 32 (pat32 (sx x.toNat 32 * sx y.toNat 32 / 2 ^ 32)) := by
  rw [ofNat_pat32, sx_toNat, sx_toNat]

/-- A cell of R149: its result is one word for a zero divisor and another for the rest. -/
theorem ite_divisor_eq_ofNat {y v w : Word} {m n : Nat} (hv : v = BitVec.ofNat 32 m) (hw : w = BitVec.ofNat 32 n) :
    (if y = 0 then v else w) = BitVec.ofNat 32 (if y.toNat = 0 then m else n) := by
  have hzero : y = 0 ↔ y.toNat = 0 := BitVec.toNat_eq
  simp only [hzero, hv, hw]
  split <;> rfl

/-- The quotient of DIV is truncated toward zero, and its pattern is that of 2^31 at the overflow (R149). -/
theorem tdiv_eq_ofNat (x y : Word) :
    BitVec.ofInt 32 (x.toInt.tdiv y.toInt) = BitVec.ofNat 32 (pat32 ((sx x.toNat 32).tdiv (sx y.toNat 32))) := by
  rw [ofNat_pat32, sx_toNat, sx_toNat]

theorem tmod_eq_ofNat (x y : Word) :
    BitVec.ofInt 32 (x.toInt.tmod y.toInt) = BitVec.ofNat 32 (pat32 ((sx x.toNat 32).tmod (sx y.toNat 32))) := by
  rw [ofNat_pat32, sx_toNat, sx_toNat]

/-- The cells of R148 and R149 answer the write of their row. -/
theorem exec_of_mulDivResult {i : Instr} {s : State} {r : RegWrite} (hres : mulDivResult i s.core = some r)
    (hr : ready s.core i r.hdr = true) :
    exec i s = .next { s with core := s.core.retireFrom r.hdr 1 (s.core.setGroup r.dest r.width r.value) } := by
  unfold mulDivResult at hres
  dsimp only at hres
  split at hres <;> cases hres
  · change execMul _ _ _ _ s = _
    exact wordOp_ready hr (mul_eq_ofNat _ _)
  · change execMulh _ _ _ _ s = _
    exact wordOp_ready hr (mulHigh_eq_ofNat _ _)
  · change execMulhu _ _ _ _ s = _
    exact wordOp_ready hr rfl
  · change execDiv _ _ _ _ s = _
    exact wordOp_ready hr (ite_divisor_eq_ofNat rfl (tdiv_eq_ofNat _ _))
  · change execDivu _ _ _ _ s = _
    exact wordOp_ready hr (ite_divisor_eq_ofNat rfl rfl)
  · change execRem _ _ _ _ s = _
    exact wordOp_ready hr (ite_divisor_eq_ofNat (by simp) (tmod_eq_ofNat _ _))
  · change execRemu _ _ _ _ s = _
    exact wordOp_ready hr (ite_divisor_eq_ofNat (by simp) rfl)

/-- Settles O10: each cell by its own row; those of R149 at a zero divisor and at any other. -/
theorem multiplyDivideResults : Obligations.MultiplyDivideResults :=
  ⟨fun _ _ _ => exec_of_mulDivResult, rfl⟩

end Sys2Proof.Machine
end

section
/-! PROOFS. Comparisons and predicate cells (R146, R156, R158, R159). -/

namespace Sys2Proof.Machine
open Sys2Proof.Claims

/-- A ready cell whose body writes one predicate. -/
theorem scalar_setPred_ready {i : Instr} {h : Hdr} {s : State} {p : BitVec 3} {f : Core → Bool} {b : Bool}
    (hr : ready s.core i h = true) (hb : f s.core = b) :
    scalar i h (fun c => .retire (c.setPred p.toNat (f c)) 1) s =
      .next { s with core := s.core.retireFrom h 1 (s.core.setPred p.toNat b) } := by
  rw [← hb]
  exact scalar_ready hr rfl

/-- A ready CMPI compares with the immediate as a number. -/
theorem cmpi_ready {i : Instr} {h : Hdr} {s : State} {p : BitVec 3} {a : BitVec 6} {k : BitVec 9} {cc : Cond} {b : Bool}
    (hr : ready s.core i h = true) (hb : cc.holds 32 (s.core.reg a.toNat).toNat (immediate h k) = b) :
    scalar i h (fun c => .retire (c.setPred p.toNat (cc.holds 32 (c.reg a.toNat).toNat (immSi h k).toNat)) 1) s =
      .next { s with core := s.core.retireFrom h 1 (s.core.setPred p.toNat b) } :=
  scalar_setPred_ready hr (by rw [immSi_toNat, hb])

/-- NE is the negation of equality of the bit patterns. -/
theorem Cond.holds_ne (n x y : Nat) : Cond.ne.holds n x y = decide (x ≠ y) := by
  rw [decide_not]
  rfl

/-- The cells of R146, R156, R158 and R159 answer the write of their truth. -/
theorem exec_of_truth {i : Instr} {s : State} {h : Hdr} {d : Nat} {b : Bool} (htruth : truth i s.core = some (h, d, b))
    (hr : ready s.core i h = true) :
    exec i s = .next { s with core := s.core.retireFrom h 1 (s.core.setPred d b) } := by
  unfold truth at htruth
  dsimp only at htruth
  split at htruth <;> cases htruth
  · change execCmpEq _ _ _ _ _ s = _
    exact scalar_setPred_ready hr rfl
  · change execCmpNe _ _ _ _ _ s = _
    exact scalar_setPred_ready hr (Cond.holds_ne _ _ _)
  · change execCmpLt _ _ _ _ _ s = _
    exact scalar_setPred_ready hr rfl
  · change execCmpLe _ _ _ _ _ s = _
    exact scalar_setPred_ready hr rfl
  · change execCmpLtu _ _ _ _ _ s = _
    exact scalar_setPred_ready hr rfl
  · change execCmpLeu _ _ _ _ _ s = _
    exact scalar_setPred_ready hr rfl
  · change execCmpiEq _ _ _ _ s = _
    exact cmpi_ready hr rfl
  · change execCmpiNe _ _ _ _ s = _
    exact cmpi_ready hr (Cond.holds_ne _ _ _)
  · change execCmpiLt _ _ _ _ s = _
    exact cmpi_ready hr rfl
  · change execCmpiLe _ _ _ _ s = _
    exact cmpi_ready hr rfl
  · change execCmpiLtu _ _ _ _ s = _
    exact cmpi_ready hr rfl
  · change execCmpiLeu _ _ _ _ s = _
    exact cmpi_ready hr rfl
  · change execFcmpEq _ _ _ _ s = _
    exact scalar_setPred_ready hr rfl
  · change execFcmpLt _ _ _ _ s = _
    exact scalar_setPred_ready hr rfl
  · change execFcmpLe _ _ _ _ s = _
    exact scalar_setPred_ready hr rfl
  · change execFcmpUn _ _ _ _ s = _
    exact scalar_setPred_ready hr rfl
  · change execPand _ _ _ _ s = _
    exact scalar_setPred_ready hr rfl
  · change execPor _ _ _ _ s = _
    exact scalar_setPred_ready hr rfl
  · change execPxor _ _ _ _ s = _
    exact scalar_setPred_ready hr rfl
  · change execPnot _ _ _ s = _
    exact scalar_setPred_ready hr rfl
  · change execPmov _ _ _ s = _
    exact scalar_setPred_ready hr rfl

/-- Settles O12: each cell by its own row, over the write of one predicate. -/
theorem comparisonResults : Obligations.ComparisonResults :=
  ⟨fun _ _ _ _ _ => exec_of_truth, rfl, rfl⟩

end Sys2Proof.Machine
end

section
/-! PROOFS. Bit cells: counts of zeros and ones, reversal, Morton codes and bit fields (R150 to R152). -/

namespace Sys2Proof.Machine
open Sys2Proof.Claims

/-! ## Sums and counts below n -/

theorem sumTo_eq_sum (n : Nat) (f : Nat → Nat) : sumTo n f = ∑ i ∈ Finset.range n, f i := rfl

theorem sumTo_succ (n : Nat) (f : Nat → Nat) : sumTo (n + 1) f = sumTo n f + f n := by
  simp only [sumTo_eq_sum, Finset.sum_range_succ]

theorem sumTo_congr {n : Nat} {f g : Nat → Nat} (h : ∀ i < n, f i = g i) : sumTo n f = sumTo n g := by
  simp only [sumTo_eq_sum]
  exact Finset.sum_congr rfl (fun i hi => h i (Finset.mem_range.mp hi))

theorem sumTo_reflect (n : Nat) (f : Nat → Nat) : sumTo n (fun i => f (n - 1 - i)) = sumTo n f :=
  Finset.sum_range_reflect f n

/-- A sum of k n terms, k at a time. -/
theorem sumTo_mul (k n : Nat) (f : Nat → Nat) :
    sumTo (k * n) f = sumTo n (fun i => sumTo k (fun j => f (k * i + j))) := by
  induction n with
  | zero => rfl
  | succ n ih => rw [sumTo_succ, ← ih, sumTo_eq_sum, Nat.mul_succ, Finset.sum_range_add]; rfl

/-- A count is a sum of truth values. -/
theorem countTo_eq_sumTo (n : Nat) (p : Nat → Bool) : Claims.countTo n p = sumTo n (fun i => (p i).toNat) := by
  induction n with
  | zero => rfl
  | succ n ih =>
    rw [sumTo_succ, ← ih, Claims.countTo, Claims.countTo, List.range_succ, List.filter_append, List.length_append]
    cases hp : p n <;> simp [hp]

theorem countTo_succ (n : Nat) (p : Nat → Bool) : Claims.countTo (n + 1) p = Claims.countTo n p + (p n).toNat := by
  rw [countTo_eq_sumTo, sumTo_succ, ← countTo_eq_sumTo]

theorem countTo_reflect (n : Nat) (p : Nat → Bool) : Claims.countTo n (fun i => p (n - 1 - i)) = Claims.countTo n p := by
  rw [countTo_eq_sumTo, countTo_eq_sumTo, ← sumTo_reflect n (fun i => (p i).toNat)]

/-- The first place below n where p holds, where q says that p fails up to a place: as many places as q has. -/
theorem findIdx_range_eq_countTo {n : Nat} {p q : Nat → Bool}
    (h : ∀ k < n, q k = true ↔ ∀ j ≤ k, p j = false) : (List.range n).findIdx p = Claims.countTo n q := by
  induction n with
  | zero => rfl
  | succ n ih =>
    have hind := ih (fun k hk => h k (by omega))
    rw [List.range_succ, List.findIdx_append, countTo_succ, hind]
    split
    next hfound =>
      obtain ⟨j, hj, hpj⟩ := List.findIdx_lt_length.mp (hind ▸ hfound)
      have hq : q n = false := by
        rw [Bool.eq_false_iff, ne_eq, h n (by omega)]
        intro hnone
        simp [hnone j (List.mem_range.mp hj).le] at hpj
      rw [hq, Bool.toNat_false, Nat.add_zero]
    next hnone =>
      have hlen : (List.range n).findIdx p = (List.range n).length :=
        le_antisymm List.findIdx_le_length (hind ▸ not_lt.mp hnone)
      have hbelow := List.findIdx_eq_length.mp hlen
      have hq : q n = !p n := by
        rw [Bool.eq_iff_iff, h n (by omega), Bool.not_eq_true']
        refine ⟨fun hall => hall n le_rfl, fun hn j hj => ?_⟩
        rcases hj.lt_or_eq with hlt | rfl
        · exact hbelow j (List.mem_range.mpr hlt)
        · exact hn
      rw [hq, ← hind, hlen]
      cases hp : p n <;> simp [hp, Nat.add_comm]

/-! ## Bits of a number -/

theorem nbit_eq_testBit (x i : Nat) : nbit x i = x.testBit i := by
  rw [Nat.testBit_eq_decide_div_mod_eq]
  rfl

theorem nbit_toNat (x i : Nat) : (nbit x i).toNat = bitAt x i := by
  rw [nbit, bitAt]
  rcases Nat.mod_two_eq_zero_or_one (x / 2 ^ i) with h | h <;> simp [h]

/-- A number by its bits is the sum of their weights. -/
theorem natOfBits_eq_sumTo (f : Nat → Bool) (n : Nat) : natOfBits f n = sumTo n (fun i => (f i).toNat * 2 ^ i) := by
  induction n with
  | zero => rfl
  | succ n ih =>
    rw [natOfBits, ih, sumTo_succ]
    cases f n <;> simp

/-! ## Counts of zeros and ones (R150) -/

/-- Leading zeros: as many as the powers of two below 2^n that exceed the number. -/
theorem leadingZeros_eq_countTo {n x : Nat} (hx : x < 2 ^ n) :
    leadingZeros n x = Claims.countTo n (fun k => decide (x < 2 ^ k)) := by
  rw [← countTo_reflect]
  refine findIdx_range_eq_countTo (p := fun i => nbit x (n - 1 - i)) (fun k hk => ?_)
  simp only [decide_eq_true_iff, nbit_eq_testBit]
  constructor
  · intro hlt j hj
    exact Nat.testBit_lt_two_pow (hlt.trans_le (Nat.pow_le_pow_right (by decide) (by omega)))
  · intro hclear
    refine Nat.lt_pow_two_of_testBit x (fun i hi => ?_)
    by_cases hin : i < n
    · have hbit := hclear (n - 1 - i) (by omega)
      rwa [show n - 1 - (n - 1 - i) = i by omega] at hbit
    · exact Nat.testBit_lt_two_pow (hx.trans_le (Nat.pow_le_pow_right (by decide) (by omega)))

/-- Trailing zeros: as many as the powers of two up to 2^n that divide the number. -/
theorem trailingZeros_eq_countTo (n x : Nat) :
    trailingZeros n x = Claims.countTo n (fun k => decide (x % 2 ^ (k + 1) = 0)) := by
  refine findIdx_range_eq_countTo (p := nbit x) (fun k _ => ?_)
  simp only [decide_eq_true_iff, nbit_eq_testBit]
  constructor
  · intro hzero j hj
    have hbit := Nat.testBit_mod_two_pow x (k + 1) j
    simpa [hzero, Nat.lt_succ_of_le hj] using hbit.symm
  · intro hclear
    refine Nat.zero_of_testBit_eq_false (fun j => ?_)
    rw [Nat.testBit_mod_two_pow]
    by_cases hj : j < k + 1
    · simp [hclear j (by omega)]
    · simp [hj]

theorem onesCount_eq_sumTo (n x : Nat) : onesCount n x = sumTo n (bitAt x) :=
  (countTo_eq_sumTo n (nbit x)).trans (sumTo_congr (fun i _ => nbit_toNat x i))

/-! ## Reversal and Morton codes (R150, R151) -/

/-- Bits of a word written at other places. -/
theorem natOfBits_wbit_eq_sumTo (x : Word) (g : Nat → Nat) (n : Nat) :
    natOfBits (fun i => wbit x (g i)) n = sumTo n (fun i => bitAt x.toNat (g i) * 2 ^ i) := by
  rw [natOfBits_eq_sumTo]
  exact sumTo_congr (fun i _ => congrArg (· * 2 ^ i) (nbit_toNat x.toNat (g i)))

theorem reversed_eq_sumTo (x : Word) :
    natOfBits (fun i => wbit x (31 - i)) 32 = sumTo 32 (fun i => bitAt x.toNat i * 2 ^ (31 - i)) := by
  rw [natOfBits_wbit_eq_sumTo, ← sumTo_reflect]
  refine sumTo_congr (fun i hi => ?_)
  rw [show 32 - 1 - i = 31 - i by omega, show 31 - (31 - i) = i by omega]

theorem interleave2_eq_sumTo (x y : Nat) :
    interleave2 x y = sumTo 16 (fun i => (bitAt x i + 2 * bitAt y i) * 4 ^ i) := by
  rw [interleave2, natOfBits_eq_sumTo, sumTo_mul 2 16]
  refine sumTo_congr (fun i _ => ?_)
  have hbase : 2 * i % 2 = 0 ∧ 2 * i / 2 = i := by omega
  have hodd : (2 * i + 1) % 2 = 1 ∧ (2 * i + 1) / 2 = i := by omega
  simp only [sumTo_eq_sum, Finset.sum_range_succ, Finset.sum_range_zero, hbase, hodd, Nat.pow_succ,
    Nat.pow_mul, Nat.add_zero]
  norm_num [nbit_toNat]
  ring

theorem interleave3_eq_sumTo (x y : Nat) :
    interleave3 x y = sumTo 10 (fun i => (bitAt x i + 2 * bitAt y i + 4 * bitAt y (16 + i)) * 8 ^ i) := by
  rw [interleave3, natOfBits_eq_sumTo, sumTo_mul 3 10]
  refine sumTo_congr (fun i _ => ?_)
  have hzero : 3 * i % 3 = 0 ∧ 3 * i / 3 = i := by omega
  have hone : (3 * i + 1) % 3 = 1 ∧ (3 * i + 1) / 3 = i := by omega
  have htwo : (3 * i + 2) % 3 = 2 ∧ (3 * i + 2) / 3 = i := by omega
  simp only [sumTo_eq_sum, Finset.sum_range_succ, Finset.sum_range_zero, hzero, hone, htwo, nbit_toNat, Nat.pow_add,
    Nat.pow_mul, Nat.add_zero]
  norm_num
  ring

/-! ## Bit fields (R152) -/

/-- A word takes the low 32 bits of a number. -/
theorem ofNat_mod_word (k : Nat) : BitVec.ofNat 32 (k % 2 ^ 32) = BitVec.ofNat 32 k :=
  BitVec.eq_of_toNat_eq (by simp)

theorem not_ofNat_eq_ofNat (k : Nat) : ~~~(BitVec.ofNat 32 k) = BitVec.ofNat 32 (0xFFFFFFFF - k % 2 ^ 32) := by
  apply BitVec.eq_of_toNat_eq
  rw [BitVec.toNat_not, BitVec.toNat_ofNat, BitVec.toNat_ofNat]
  omega

/-- BFI: the mask of the field, the destination outside it and the source inside it, as numbers. -/
theorem insertField_eq_ofNat (d x y : Word) :
    insertField d x y =
      let m := (2 ^ (bits y.toNat 9 5 + 1) - 1) * 2 ^ bits y.toNat 4 0 % 2 ^ 32
      BitVec.ofNat 32 ((d.toNat &&& (0xFFFFFFFF - m)) ||| (x.toNat * 2 ^ bits y.toNat 4 0 &&& m)) := by
  dsimp only
  rw [insertField, BitVec.ofNat_or, BitVec.ofNat_and, BitVec.ofNat_and, ← not_ofNat_eq_ofNat, shiftLeft_eq_ofNat, ofNat_mod_word,
    ofNat_mod_word, BitVec.ofNat_toNat, BitVec.setWidth_eq]

/-- The cells of R150 to R152 answer the write of their row. -/
theorem exec_of_bitResult {i : Instr} {s : State} {r : RegWrite} (hres : bitResult i s.core = some r)
    (hr : ready s.core i r.hdr = true) :
    exec i s = .next { s with core := s.core.retireFrom r.hdr 1 (s.core.setGroup r.dest r.width r.value) } := by
  unfold bitResult at hres
  dsimp only at hres
  split at hres <;> cases hres
  · change execClz _ _ _ s = _
    exact unaryOp_ready hr (by rw [leadingZeros_eq_countTo (BitVec.isLt _)])
  · change execCtz _ _ _ s = _
    exact unaryOp_ready hr (by rw [trailingZeros_eq_countTo])
  · change execPopc _ _ _ s = _
    exact unaryOp_ready hr (by rw [onesCount_eq_sumTo])
  · change execBrev _ _ _ s = _
    exact unaryOp_ready hr (by rw [reversed_eq_sumTo])
  · change execBilv2 _ _ _ _ s = _
    exact wordOp_ready hr (by rw [interleave2_eq_sumTo])
  · change execBilv3 _ _ _ _ s = _
    exact wordOp_ready hr (by rw [interleave3_eq_sumTo])
  · change execBdlv2 _ _ _ _ s = _
    exact wordOp_ready hr (by rw [natOfBits_wbit_eq_sumTo])
  · change execBdlv3 _ _ _ _ s = _
    exact wordOp_ready hr (by rw [natOfBits_wbit_eq_sumTo]; split <;> rfl)
  · change execBfx _ _ _ _ s = _
    exact wordOp_ready hr (by rw [Nat.and_two_pow_sub_one_eq_mod])
  · change execBfi _ _ _ _ s = _
    exact scalar_setReg_ready hr (insertField_eq_ofNat _ _ _)

/-- Settles O11: each cell by its own row; counts and Morton codes as sums over bits. -/
theorem bitCellResults : Obligations.BitCellResults := fun _ _ _ => exec_of_bitResult

end Sys2Proof.Machine
end

section
/-! PROOFS. FP32 cells: the order of FMIN and FMAX (R154), and the results and conditions of the cells (R153 to R155). -/

namespace Sys2Proof.Machine
open Sys2Proof.Claims

/-! ## FP32 magnitudes in units of 2^-149 (R115) -/

/-- The magnitude of an FP32 code without its sign bit, in units of the least subnormal. The code of infinity counts as the
binade above the finite ones, so that the order of codes is that of magnitudes throughout. -/
def fpUnits (m : Nat) : Nat :=
  if m / 2 ^ 23 = 0 then m % 2 ^ 23 else (2 ^ 23 + m % 2 ^ 23) * 2 ^ (m / 2 ^ 23 - 1)

/-- The code of infinity without its sign bit. -/
def infCode : Nat := 255 * 2 ^ 23

theorem fpUnits_subnormal {m : Nat} (h : m / 2 ^ 23 = 0) : fpUnits m = m % 2 ^ 23 := if_pos h

theorem fpUnits_normal {m : Nat} (h : m / 2 ^ 23 ≠ 0) :
    fpUnits m = (2 ^ 23 + m % 2 ^ 23) * 2 ^ (m / 2 ^ 23 - 1) := if_neg h

theorem fpUnits_lt_succ (m : Nat) : fpUnits m < fpUnits (m + 1) := by
  by_cases hcarry : m % 2 ^ 23 + 1 = 2 ^ 23
  · -- the next code starts the next binade
    have hexp : (m + 1) / 2 ^ 23 = m / 2 ^ 23 + 1 := by omega
    have hfrac : (m + 1) % 2 ^ 23 = 0 := by omega
    rw [fpUnits, fpUnits, hexp, hfrac, if_neg (Nat.succ_ne_zero _), Nat.add_sub_cancel, Nat.add_zero]
    split
    next h => rw [h, Nat.pow_zero]; omega
    next h =>
      obtain ⟨k, hk⟩ := Nat.exists_eq_succ_of_ne_zero h
      have hpos : 0 < 2 ^ k := Nat.two_pow_pos k
      rw [hk, Nat.succ_sub_one, Nat.pow_succ]
      calc (2 ^ 23 + m % 2 ^ 23) * 2 ^ k
        _ < (2 ^ 23 * 2) * 2 ^ k := Nat.mul_lt_mul_of_pos_right (by omega) hpos
        _ = 2 ^ 23 * (2 ^ k * 2) := by ring
  · have hexp : (m + 1) / 2 ^ 23 = m / 2 ^ 23 := by omega
    have hfrac : (m + 1) % 2 ^ 23 = m % 2 ^ 23 + 1 := by omega
    rw [fpUnits, fpUnits, hexp, hfrac]
    split
    · omega
    · exact Nat.mul_lt_mul_of_pos_right (by omega) (Nat.two_pow_pos _)

theorem fpUnits_strictMono : StrictMono fpUnits := strictMono_nat_of_lt_succ fpUnits_lt_succ

/-- A value that is no NaN has the sign s and the magnitude of u units. -/
inductive AtUnits : Val → Bool → Nat → Prop
  | inf (s : Bool) : AtUnits (.inf s) s (fpUnits infCode)
  | fin (s : Bool) {n d u : Nat} (hd : 0 < d) (hu : n * 2 ^ 149 = u * d) (hlt : u < fpUnits infCode) :
    AtUnits (.fin s n d) s u

theorem dyadic_atUnits (s : Bool) {n j : Nat} {k : Int} (hk : k = (j : Int) - 149)
    (hlt : n * 2 ^ j < fpUnits infCode) : AtUnits (Val.dyadic s n k) s (n * 2 ^ j) := by
  cases k with
  | ofNat k =>
    have hj : j = k + 149 := by rw [Int.ofNat_eq_natCast] at hk; omega
    refine AtUnits.fin s Nat.one_pos ?_ hlt
    calc n * 2 ^ k * 2 ^ 149
      _ = n * 2 ^ j * 1 := by rw [hj, Nat.pow_add, Nat.mul_one, Nat.mul_assoc]
  | negSucc k =>
    have hj : 149 = j + (k + 1) := by omega
    refine AtUnits.fin s (Nat.mul_pos Nat.one_pos (Nat.two_pow_pos (k + 1))) ?_ hlt
    calc n * 2 ^ 149
      _ = n * 2 ^ j * (1 * 2 ^ (k + 1)) := by rw [hj, Nat.pow_add, Nat.one_mul, Nat.mul_assoc]

/-- An FP32 code that is no NaN stands for the magnitude of its low 31 bits, with its top bit as the sign. -/
theorem fp32_atUnits {x : Nat} (hx : x < 2 ^ 32) (hnan : (Fmt.fp32.value x).isNan = false) :
    AtUnits (Fmt.fp32.value x) (decide (2 ^ 31 ≤ x)) (fpUnits (x % 2 ^ 31)) := by
  have hsign : decide (bits x 31 31 = 1) = decide (2 ^ 31 ≤ x) := by
    rw [decide_eq_decide, bits]
    omega
  have hexp : bits x 30 23 = x % 2 ^ 31 / 2 ^ 23 := by rw [bits]; omega
  have hfrac : bits x 22 0 = x % 2 ^ 31 % 2 ^ 23 := by rw [bits]; omega
  have hvalue : Fmt.fp32.value x =
      if x % 2 ^ 31 / 2 ^ 23 = 255 then
        if x % 2 ^ 31 % 2 ^ 23 = 0 then .inf (decide (2 ^ 31 ≤ x)) else .nan
      else if x % 2 ^ 31 / 2 ^ 23 = 0 then .dyadic (decide (2 ^ 31 ≤ x)) (x % 2 ^ 31 % 2 ^ 23) (-149)
      else .dyadic (decide (2 ^ 31 ≤ x)) (2 ^ 23 + x % 2 ^ 31 % 2 ^ 23) ((x % 2 ^ 31 / 2 ^ 23 : Nat) - 127 - 23) := by
    rw [← hsign, ← hexp, ← hfrac]
    simp [Fmt.value, Fmt.float?, Fmt.hasInf]
  have hfinite (h : x % 2 ^ 31 / 2 ^ 23 ≠ 255) : fpUnits (x % 2 ^ 31) < fpUnits infCode :=
    fpUnits_strictMono (by rw [infCode]; omega)
  rw [hvalue] at hnan ⊢
  split at hnan
  next hmax =>
    split at hnan
    next hzero =>
      rw [if_pos hmax, if_pos hzero, show x % 2 ^ 31 = infCode by rw [infCode]; omega]
      exact AtUnits.inf _
    next => cases hnan
  next hmax =>
    have hlt := hfinite hmax
    rw [if_neg hmax]
    split
    next hsub =>
      have hunits : fpUnits (x % 2 ^ 31) = x % 2 ^ 31 % 2 ^ 23 * 2 ^ 0 := by
        rw [fpUnits_subnormal hsub, Nat.pow_zero, Nat.mul_one]
      rw [hunits] at hlt ⊢
      exact dyadic_atUnits _ rfl hlt
    next hnormal =>
      rw [fpUnits_normal hnormal] at hlt ⊢
      exact dyadic_atUnits _ (by omega) hlt

/-! ## The order of FMIN and FMAX (R154) -/

/-- Where a sign and a magnitude stand in the order in which -0 lies just below +0. -/
def signedOrder (s : Bool) (u : Nat) : Int := if s then -(u : Int) - 1 else u

theorem fpOrder_eq_signedOrder {x : Nat} (hx : x < 2 ^ 32) :
    fpOrder x = signedOrder (decide (2 ^ 31 ≤ x)) (x % 2 ^ 31) := by
  simp only [fpOrder, signedOrder, decide_eq_true_iff]
  split <;> split <;> omega

/-- A strictly monotone change of magnitudes keeps the order. -/
theorem signedOrder_lt_iff {f : Nat → Nat} (hf : StrictMono f) (s t : Bool) (u v : Nat) :
    signedOrder s (f u) < signedOrder t (f v) ↔ signedOrder s u < signedOrder t v := by
  have huv := hf.lt_iff_lt (a := u) (b := v)
  have hvu := hf.lt_iff_lt (a := v) (b := u)
  cases s <;> cases t <;> simp only [signedOrder, if_true, Bool.false_eq_true, if_false] <;> omega

theorem isZero_fin (s : Bool) (n d : Nat) : (Val.fin s n d).isZero = decide (n = 0) := by
  cases n <;> rfl

/-- The order of FMIN of two finite values of u and v units: cross products compare as the units do. -/
theorem ltz_fin {s t : Bool} {n d m e u v : Nat} (hd : 0 < d) (hu : n * 2 ^ 149 = u * d) (he : 0 < e)
    (hv : m * 2 ^ 149 = v * e) :
    (Val.fin s n d).ltz (.fin t m e) = decide (signedOrder s u < signedOrder t v) := by
  have hpos : 0 < d * e := Nat.mul_pos hd he
  have hleft : n * e * 2 ^ 149 = u * (d * e) := by rw [Nat.mul_right_comm, hu, Nat.mul_assoc]
  have hright : m * d * 2 ^ 149 = v * (d * e) := by rw [Nat.mul_right_comm, hv, Nat.mul_assoc, Nat.mul_comm e]
  have hlt : n * e < m * d ↔ u < v := by
    rw [← Nat.mul_lt_mul_right (Nat.two_pow_pos 149), hleft, hright, Nat.mul_lt_mul_right hpos]
  have hgt : m * d < n * e ↔ v < u := by
    rw [← Nat.mul_lt_mul_right (Nat.two_pow_pos 149), hleft, hright, Nat.mul_lt_mul_right hpos]
  have hn : n * e = 0 ↔ n = 0 := by simp [he.ne']
  have hm : m * d = 0 ↔ m = 0 := by simp [hd.ne']
  simp only [Val.ltz, Val.lt, isZero_fin, Val.sign, signedOrder]
  rw [Bool.eq_iff_iff]
  generalize n * e = a at *
  generalize m * d = b at *
  cases s <;> cases t <;> simp <;> omega

/-- The order of FMIN is that of signs and magnitudes: beside an infinity the signs decide, or that the magnitude of the
other value is below its own. -/
theorem ltz_of_atUnits {a b : Val} {s t : Bool} {u v : Nat} (ha : AtUnits a s u) (hb : AtUnits b t v) :
    a.ltz b = decide (signedOrder s u < signedOrder t v) := by
  cases ha with
  | inf =>
    cases hb with
    | inf => cases s <;> cases t <;> simp [Val.ltz, Val.lt, Val.isZero, signedOrder]; omega
    | fin _ hd hv hlt => cases s <;> cases t <;> simp [Val.ltz, Val.lt, Val.isZero, signedOrder] <;> omega
  | fin _ hd hu hlt =>
    cases hb with
    | inf => cases s <;> cases t <;> simp [Val.ltz, Val.lt, Val.isZero, signedOrder] <;> omega
    | fin _ he hv _ => exact ltz_fin hd hu he hv

/-- Two FP32 codes that are no NaNs compare in the order of R154. -/
theorem ltz_fp32 {x y : Nat} (hx : x < 2 ^ 32) (hy : y < 2 ^ 32) (hnx : (Fmt.fp32.value x).isNan = false)
    (hny : (Fmt.fp32.value y).isNan = false) :
    (Fmt.fp32.value x).ltz (Fmt.fp32.value y) = decide (fpOrder x < fpOrder y) := by
  rw [ltz_of_atUnits (fp32_atUnits hx hnx) (fp32_atUnits hy hny), fpOrder_eq_signedOrder hx, fpOrder_eq_signedOrder hy,
    decide_eq_decide]
  exact signedOrder_lt_iff fpUnits_strictMono _ _ _ _

theorem minMaxFp32_eq_fpPick (least : Bool) {x y : Nat} (hx : x < 2 ^ 32) (hy : y < 2 ^ 32) :
    minMaxFp32 least x y = fpPick least x y := by
  cases hnx : (Fmt.fp32.value x).isNan with
  | true => simp [minMaxFp32, fpPick, hnx]
  | false =>
    cases hny : (Fmt.fp32.value y).isNan with
    | true => simp [minMaxFp32, fpPick, hnx, hny]
    | false =>
      simp only [minMaxFp32, fpPick, hnx, hny, ltz_fp32 hx hy hnx hny]
      by_cases hlt : fpOrder x < fpOrder y <;> cases least <;> simp [hlt]

/-! ## Rounded results and their conditions (R153, R155) -/

theorem fpMode_eq_scalarRm (c : Core) : c.fpMode = scalarRm c := by
  have hlow : bits c.csr.fpctl.toNat 2 0 = c.csr.fpctl.toNat % 8 := by rw [bits]; omega
  rw [Core.fpMode, hlow]
  rfl

theorem fpCore_eq_setXf (c : Core) (d code flags : Nat) :
    fpCore c d code flags = (c.setReg d (BitVec.ofNat 32 code)).setXf flags := by
  simp only [fpCore, Core.setXf, orWord, Core.setReg_csr]

/-- Without conditions only the register is written. -/
theorem fpCore_no_flags (c : Core) (d code : Nat) : fpCore c d code 0 = c.setReg d (BitVec.ofNat 32 code) := by
  have hsame : c.csr.fpctl ||| BitVec.ofNat 32 (0 * 2 ^ 16) = (c.setReg d (BitVec.ofNat 32 code)).csr.fpctl := by
    simp [Core.setReg_csr]
  simp only [fpCore, hsame]

section Shapes
variable {i : Instr} {h : Hdr} {s : State}

/-- A ready FP32 operation writes the rounded code and sets the bits of the rounding and of an invalid operation. -/
theorem fpOp_ready {d : BitVec 6} {f : Core → Val × Bool} {v : Val × Bool} (hr : ready s.core i h = true)
    (hv : f s.core = v) :
    fpOp i h d f s = .next { s with core := s.core.retireFrom h 1 (fpCore s.core d.toNat
      (round .fp32 (scalarRm s.core) false v.1).code
      ((round .fp32 (scalarRm s.core) false v.1).flags ||| (if v.2 then 1 else 0))) } := by
  rw [fpCore_eq_setXf, ← fpMode_eq_scalarRm, ← hv]
  exact scalar_ready hr rfl

/-- A ready FCVT writes the rounded code and sets the bits of the rounding. -/
theorem convert_ready {d : BitVec 6} {g : Fmt} {f : Core → Val} {v : Val} {flags : Nat} (hr : ready s.core i h = true)
    (hv : f s.core = v) (hflags : flags = (round g (scalarRm s.core) false v).flags) :
    convert i h d g f s = .next { s with core := s.core.retireFrom h 1 (fpCore s.core d.toNat
      (round g (scalarRm s.core) false v).code flags) } := by
  rw [hflags, fpCore_eq_setXf, ← fpMode_eq_scalarRm, ← hv]
  exact scalar_ready hr rfl

/-- A ready FMIN or FMAX writes the code that R154 picks and sets no bit. -/
theorem minMax_ready {d a b : BitVec 6} (least : Bool) (hr : ready s.core i h = true) :
    wordOp i h d a b (fun x y => BitVec.ofNat 32 (minMaxFp32 least x.toNat y.toNat)) s =
      .next { s with core := s.core.retireFrom h 1 (fpCore s.core d.toNat
        (fpPick least (s.core.reg a.toNat).toNat (s.core.reg b.toNat).toNat) 0) } := by
  rw [fpCore_no_flags, ← minMaxFp32_eq_fpPick least (BitVec.isLt _) (BitVec.isLt _)]
  exact scalar_ready hr rfl

end Shapes

/-- The cells of R153 to R155 answer the code and the conditions of their row. -/
theorem exec_of_fpResult {i : Instr} {s : State} {h : Hdr} {d code flags : Nat}
    (hres : fpResult i s.core = some (h, d, code, flags)) (hr : ready s.core i h = true) :
    exec i s = .next { s with core := s.core.retireFrom h 1 (fpCore s.core d code flags) } := by
  have hdown : s.core.rdn = (scalarRm s.core == .rdn) := by rw [Core.rdn, fpMode_eq_scalarRm]
  unfold fpResult at hres
  dsimp only at hres
  split at hres <;> cases hres
  · change execFadd _ _ _ _ s = _
    exact fpOp_ready hr (by rw [hdown]; rfl)
  · change execFmul _ _ _ _ s = _
    exact fpOp_ready hr rfl
  · change execFma _ _ _ _ s = _
    exact fpOp_ready (v := fusedVal (scalarRm s.core == .rdn) _ _ _) hr (by rw [hdown]; rfl)
  · change execFmin _ _ _ _ s = _
    exact minMax_ready true hr
  · change execFmax _ _ _ _ s = _
    exact minMax_ready false hr
  · change execFcvtFI _ _ _ s = _
    exact convert_ready hr (by rw [sx_toNat]) (Nat.or_zero _)
  · change execFcvtFU _ _ _ s = _
    exact convert_ready hr rfl (Nat.or_zero _)
  · change execFcvtIF _ _ _ s = _
    exact convert_ready hr rfl (Nat.or_zero _)
  · change execFcvtUF _ _ _ s = _
    exact convert_ready hr rfl (Nat.or_zero _)

/-- Settles O13: each cell by its own row; FMIN and FMAX by the order of FP32 codes. -/
theorem floatResults : Obligations.FloatResults := fun _ _ _ _ _ _ => exec_of_fpResult

end Sys2Proof.Machine
end
